-- ==== Sys2Proof/Word.lean ====
section
/-! DEFINITION. The byte and the 32-bit word of the wire and of the decoders (20_memory.md R41, 42_response_decoders.md R184). -/

namespace Sys2Proof

/-- The unit of every space and of every wire field: 8 bits (R41). -/
abbrev Byte := BitVec 8

/-- The 32-bit pattern the firmware and value decoders build (R43, R184). -/
abbrev Word32 := BitVec 32

end Sys2Proof
end

