-- ==== Sys2Proof/Config.lean ====
section
/-! DEFINITION. What the spec leaves OPEN as a parameter (00_scope.md section 5, 10_state.md R32). Each is a constant with no
body, so that every claim holds whatever value the device has (log 14); the spec's defaults stand beside them under
`Config.Default`, for tests and for a reader who wants them. T_SETTLE and RX_DEADLINE are times and no rule reads a value
of theirs (log 15); LEN0_POLICY and CMD_FILTER stand at the value the rules give them (log 16). -/

namespace Sys2Proof

/-- The four payload offsets packed into the firmware integer, `FW_IDX[0..3]` (R175, D14). -/
structure FwIdx where
  i0 : Nat
  i1 : Nat
  i2 : Nat
  i3 : Nat
deriving DecidableEq, Repr, Inhabited

namespace Config

/-- `FW_IDX`, OPEN (D14, U16). -/
opaque fwIdx : FwIdx

/-- `VALUE_OFFSET`, OPEN (D15, U17). -/
opaque valueOffset : Nat

/-- `POST_READ_RESET`, OPEN (D16, U15, 90_conflicts.md C7). -/
opaque postReadReset : Bool

/-- The spec's default of `FW_IDX` (D14). -/
def Default.fwIdx : FwIdx := ⟨0, 1, 2, 3⟩

/-- The spec's default of `VALUE_OFFSET` (D15). -/
def Default.valueOffset : Nat := 0

/-- The spec's default of `POST_READ_RESET` (D16). -/
def Default.postReadReset : Bool := true

end Config

end Sys2Proof
end

