-- ==== Sys2Proof/Machine/Frame.lean ====
section
/-! DEFINITION. The frame format and the encoder as a function (30_encoding.md R60 to R67, 40_codec_ops.md R93). -/

namespace Sys2Proof.Machine

/-- The first byte of every frame, `hdr` (R61). -/
def header : Byte := 0xFF#8

/-- The second byte of every frame, `rsvd` (R62). -/
def reservedByte : Byte := 0x00#8

/-- `MAX_PAYLOAD`: most payload bytes in one frame (R6). -/
abbrev maxPayload : Nat := 254

/-- `sum(p)`: the bytes of a sequence added as natural numbers (00_scope.md section 6). -/
def byteSum (p : List Byte) : Nat := (p.map BitVec.toNat).sum

/-- `checksum(len, cmd, payload) = (len + cmd + sum(payload)) mod 256` (R66). -/
def checksum (len cmd : Byte) (payload : List Byte) : Byte :=
  BitVec.ofNat 8 (len.toNat + cmd.toNat + byteSum payload)

/-- The length byte of a frame with `n` payload bytes: `n + 1` (R63), 1..255 for `n ≤ 254`. -/
def lengthByte (n : Nat) : Byte := BitVec.ofNat 8 (n + 1)

/-- `encode(cmd, payload)` of R93: the whole frame in wire order. -/
def encodeFrame (cmd : Byte) (payload : List Byte) : List Byte :=
  [header, reservedByte, lengthByte payload.length, cmd] ++ payload ++
    [checksum (lengthByte payload.length) cmd payload]

end Sys2Proof.Machine
end

