-- ==== Sys2Proof/Syntax.lean ====
section
/-! DEFINITION. The instructions: one constructor per row of spec/opcode_table.json. Three host operations (R73), nineteen
command frames (R69, R75), six response decoders (42_response_decoders.md). -/

namespace Sys2Proof

/-- What the host can ask for. A FRAME row's operand is the request payload (R76: length and checksum are computed, not
operands); a DECODER row reads `rx_buf[0 .. res_len - 1]` and has no operand of its own (R170). -/
inductive Instr where
  | send (cmd : Byte) (payload : List Byte)
  | recv (cap : Nat)
  | cancel
  | reset (payload : List Byte)
  | getFirmware (payload : List Byte)
  | seekTag (payload : List Byte)
  | selectTag (payload : List Byte)
  | authenticate (payload : List Byte)
  | readBlock (payload : List Byte)
  | readValue (payload : List Byte)
  | writeBlock (payload : List Byte)
  | writeValue (payload : List Byte)
  | writeUltralight (payload : List Byte)
  | writeKey (payload : List Byte)
  | increment (payload : List Byte)
  | decrement (payload : List Byte)
  | antenna (payload : List Byte)
  | readPort (payload : List Byte)
  | writePort (payload : List Byte)
  | halt (payload : List Byte)
  | setBaudRate (payload : List Byte)
  | sleep (payload : List Byte)
  | decTag
  | decFwString
  | decFwU32
  | decAuth
  | decReadBlock
  | decReadValue
deriving DecidableEq, Repr

end Sys2Proof
end

