-- ==== Sys2Proof/WellFormed.lean ====
section
/-! DEFINITION. Which instructions a request image can hold, and which requests have the payload length the source documents.
The machine itself gives every instruction a meaning, well formed or not: an oversized payload ends `OversizedPayload`
(R92) and any capacity is legal (D11). -/

namespace Sys2Proof

/-- Most payload bytes a SEND request image holds: its length field has 9 bits, the least that expresses an oversize (D23;
log 4). -/
abbrev maxSendImagePayload : Nat := 511

/-- Most payload bytes a FRAME request image holds: its length field has 8 bits and 255 is the only oversize value (D23;
log 5). -/
abbrev maxFrameImagePayload : Nat := 255

/-- Largest capacity a RECV request image holds: `cap[7:0]` of D1's binding (log 4). Values 254 and above behave alike. -/
abbrev maxImageCap : Nat := 255

/-- The operands fit the fields of the instruction's request image. -/
def Instr.wellFormed : Instr → Bool
  | .send _ p => decide (p.length ≤ maxSendImagePayload)
  | .recv cap => decide (cap ≤ maxImageCap)
  | .cancel => true
  | .reset p => decide (p.length ≤ maxFrameImagePayload)
  | .getFirmware p => decide (p.length ≤ maxFrameImagePayload)
  | .seekTag p => decide (p.length ≤ maxFrameImagePayload)
  | .selectTag p => decide (p.length ≤ maxFrameImagePayload)
  | .authenticate p => decide (p.length ≤ maxFrameImagePayload)
  | .readBlock p => decide (p.length ≤ maxFrameImagePayload)
  | .readValue p => decide (p.length ≤ maxFrameImagePayload)
  | .writeBlock p => decide (p.length ≤ maxFrameImagePayload)
  | .writeValue p => decide (p.length ≤ maxFrameImagePayload)
  | .writeUltralight p => decide (p.length ≤ maxFrameImagePayload)
  | .writeKey p => decide (p.length ≤ maxFrameImagePayload)
  | .increment p => decide (p.length ≤ maxFrameImagePayload)
  | .decrement p => decide (p.length ≤ maxFrameImagePayload)
  | .antenna p => decide (p.length ≤ maxFrameImagePayload)
  | .readPort p => decide (p.length ≤ maxFrameImagePayload)
  | .writePort p => decide (p.length ≤ maxFrameImagePayload)
  | .halt p => decide (p.length ≤ maxFrameImagePayload)
  | .setBaudRate p => decide (p.length ≤ maxFrameImagePayload)
  | .sleep p => decide (p.length ≤ maxFrameImagePayload)
  | .decTag => true
  | .decFwString => true
  | .decFwU32 => true
  | .decAuth => true
  | .decReadBlock => true
  | .decReadValue => true

/-- The row's `request_payload_len`: the request payload length the source fixes, where it fixes one (R142, R145 to R147;
N7 for the fifteen commands it fixes none for). The codec does not check it (R140). -/
def Instr.documentedPayloadLength : Instr → Option Nat
  | .getFirmware _ => some 0
  | .authenticate _ => some 8
  | .readBlock _ => some 1
  | .readValue _ => some 1
  | .send _ _ => none
  | .recv _ => none
  | .cancel => none
  | .reset _ => none
  | .seekTag _ => none
  | .selectTag _ => none
  | .writeBlock _ => none
  | .writeValue _ => none
  | .writeUltralight _ => none
  | .writeKey _ => none
  | .increment _ => none
  | .decrement _ => none
  | .antenna _ => none
  | .readPort _ => none
  | .writePort _ => none
  | .halt _ => none
  | .setBaudRate _ => none
  | .sleep _ => none
  | .decTag => none
  | .decFwString => none
  | .decFwU32 => none
  | .decAuth => none
  | .decReadBlock => none
  | .decReadValue => none

end Sys2Proof
end

