-- ==== Sys2Proof/Decode.lean ====
section
/-! DEFINITION. The request images: how the bytes the host presents name an instruction, the total decoder that rejects by
name, and the encoder. A HOSTOP image is a selector byte with `op[1:0]` of R73 in its two low bits, then the operands
(log 4). A FRAME image is the frame itself (R60, R75; log 5). A DECODER image is one byte with `op = 00`, since a decoder is no
operation of the sequencer and has no bit encoding in the spec (R75; log 6). -/

namespace Sys2Proof

/-- Why a request image is no instruction. -/
inductive DecodeError where
  /-- No byte at all. -/
  | empty
  /-- `op = 00` and no decoder selected: the host asks for nothing (R73). Not an error to the machine: no effect. -/
  | noOperation
  /-- A first byte that selects nothing. -/
  | unassignedSelector (b : Byte)
  /-- A frame image whose second byte is not `0x00` (R62). -/
  | badReservedByte (b : Byte)
  /-- A frame image whose command byte has no row in the table (R70, N17). -/
  | unassignedCommand (b : Byte)
  /-- Bits 15:9 of a SEND image's length field are not 0. -/
  | badLengthField
  /-- The image ends before the instruction does. -/
  | truncated
deriving DecidableEq, Repr

/-- The FRAME row of a command code (R69); none for `0x84`, `0x88`, `0x8F`, `0x95` and everything outside `0x80..0x96`
(R70). -/
def commandOf (code : Byte) : Option (List Byte → Instr) :=
  match code.toNat with
  | 0x80 => some .reset
  | 0x81 => some .getFirmware
  | 0x82 => some .seekTag
  | 0x83 => some .selectTag
  | 0x85 => some .authenticate
  | 0x86 => some .readBlock
  | 0x87 => some .readValue
  | 0x89 => some .writeBlock
  | 0x8A => some .writeValue
  | 0x8B => some .writeUltralight
  | 0x8C => some .writeKey
  | 0x8D => some .increment
  | 0x8E => some .decrement
  | 0x90 => some .antenna
  | 0x91 => some .readPort
  | 0x92 => some .writePort
  | 0x93 => some .halt
  | 0x94 => some .setBaudRate
  | 0x96 => some .sleep
  | _ => none

/-- How many payload bytes a FRAME image's length byte announces: `len - 1`; the byte 0 is the length 256 cut to 8 bits, an
oversized request of 255 bytes (D23; log 5). -/
def framePayloadLength (len : Byte) : Nat :=
  if len.toNat = 0 then maxFrameImagePayload else len.toNat - 1

/-- The first `n` bytes and the rest; none where there are fewer than `n`. -/
def takeExactly : Nat → List Byte → Option (List Byte × List Byte)
  | 0, bytes => some ([], bytes)
  | _ + 1, [] => none
  | n + 1, b :: bytes =>
    match takeExactly n bytes with
    | none => none
    | some (front, rest) => some (b :: front, rest)

/-- A FRAME image after its header: reserved byte, length, command, payload, checksum. The checksum byte is passed over, not
judged: it is outside the row's mask (R75) and the block computes the one it sends (R76; log 5). -/
def decodeFrameImage : List Byte → Except DecodeError (Instr × List Byte)
  | rsvd :: len :: code :: body =>
    if rsvd ≠ Machine.reservedByte then .error (.badReservedByte rsvd)
    else match commandOf code with
      | none => .error (.unassignedCommand code)
      | some command =>
        match takeExactly (framePayloadLength len) body with
        | some (payload, _ :: rest) => .ok (command payload, rest)
        | _ => .error .truncated
  | _ => .error .truncated

/-- A SEND image after its selector: command byte, 9-bit payload length (low byte first), payload (log 4). -/
def decodeSendImage : List Byte → Except DecodeError (Instr × List Byte)
  | cmd :: lo :: hi :: body =>
    if 1 < hi.toNat then .error .badLengthField
    else match takeExactly (lo.toNat + 256 * hi.toNat) body with
      | some (payload, rest) => .ok (.send cmd payload, rest)
      | none => .error .truncated
  | _ => .error .truncated

/-- A RECV image after its selector: the capacity (log 4). -/
def decodeRecvImage : List Byte → Except DecodeError (Instr × List Byte)
  | cap :: rest => .ok (.recv cap.toNat, rest)
  | _ => .error .truncated

/-- The instruction at the front of a request image, and the bytes after it. -/
def decode : List Byte → Except DecodeError (Instr × List Byte)
  | [] => .error .empty
  | b :: rest =>
    match b.toNat with
    | 0x00 => .error .noOperation
    | 0x01 => decodeSendImage rest
    | 0x02 => decodeRecvImage rest
    | 0x03 => .ok (.cancel, rest)
    | 0x04 => .ok (.decTag, rest)
    | 0x08 => .ok (.decFwString, rest)
    | 0x0C => .ok (.decFwU32, rest)
    | 0x10 => .ok (.decAuth, rest)
    | 0x14 => .ok (.decReadBlock, rest)
    | 0x18 => .ok (.decReadValue, rest)
    | 0xFF => decodeFrameImage rest
    | _ => .error (.unassignedSelector b)

/-- The request image of an instruction. For a command it is the frame the block will write (R93), up to the one oversize
length the 8-bit field can name. -/
def encode : Instr → List Byte
  | .send cmd p => [0x01#8, cmd, BitVec.ofNat 8 p.length, BitVec.ofNat 8 (p.length / 256)] ++ p
  | .recv cap => [0x02#8, BitVec.ofNat 8 cap]
  | .cancel => [0x03#8]
  | .reset p => Machine.encodeFrame 0x80#8 p
  | .getFirmware p => Machine.encodeFrame 0x81#8 p
  | .seekTag p => Machine.encodeFrame 0x82#8 p
  | .selectTag p => Machine.encodeFrame 0x83#8 p
  | .authenticate p => Machine.encodeFrame 0x85#8 p
  | .readBlock p => Machine.encodeFrame 0x86#8 p
  | .readValue p => Machine.encodeFrame 0x87#8 p
  | .writeBlock p => Machine.encodeFrame 0x89#8 p
  | .writeValue p => Machine.encodeFrame 0x8A#8 p
  | .writeUltralight p => Machine.encodeFrame 0x8B#8 p
  | .writeKey p => Machine.encodeFrame 0x8C#8 p
  | .increment p => Machine.encodeFrame 0x8D#8 p
  | .decrement p => Machine.encodeFrame 0x8E#8 p
  | .antenna p => Machine.encodeFrame 0x90#8 p
  | .readPort p => Machine.encodeFrame 0x91#8 p
  | .writePort p => Machine.encodeFrame 0x92#8 p
  | .halt p => Machine.encodeFrame 0x93#8 p
  | .setBaudRate p => Machine.encodeFrame 0x94#8 p
  | .sleep p => Machine.encodeFrame 0x96#8 p
  | .decTag => [0x04#8]
  | .decFwString => [0x08#8]
  | .decFwU32 => [0x0C#8]
  | .decAuth => [0x10#8]
  | .decReadBlock => [0x14#8]
  | .decReadValue => [0x18#8]

/-- The longest request image: a SEND of 511 payload bytes, 4 + 511 bytes. -/
abbrev longestImage : Nat := 515

/-- The bytes of a table word of `nbits` bits, lowest address first. The 32-bit word of a FRAME row has the byte at frame
offset 0 in bits 31:24 (R75), so it is stored most significant byte first; shorter words are numbered from their first byte. -/
def tableWordBytes (nbits w : Nat) : List Byte :=
  if nbits = 32 then
    [BitVec.ofNat 8 (w / 0x1000000), BitVec.ofNat 8 (w / 0x10000), BitVec.ofNat 8 (w / 0x100), BitVec.ofNat 8 w]
  else (List.range (nbits / 8)).map fun k => BitVec.ofNat 8 (w / 256 ^ k)

/-- The request image of a table word: its bytes, then zeros up to the longest instruction. -/
def tableWordImage (nbits w : Nat) : List Byte :=
  tableWordBytes nbits w ++ List.replicate longestImage 0x00#8

/-- What the decoder reads from an instruction whose bits are `w`, every further bit 0. -/
def decodeTableWord (nbits w : Nat) : Option Instr :=
  match decode (tableWordImage nbits w) with
  | .ok (i, _) => some i
  | .error _ => none

end Sys2Proof
end

