-- ==== Sys2Proof/Machine/State.lean ====
section
/-! DEFINITION. The machine's state as plain data: every register, buffer and stream of 10_state.md, and the model's own
fields for the agents around the block (INVENTORY.md, State). -/

namespace Sys2Proof.Machine

/-- The sequencer state `seq`: 14 symbolic values (R12). -/
inductive Seq where
  | idle
  | txHdr | txRsvd | txLen | txCmd | txPay | txCsum
  | rxSettle | rxHunt | rxRsvd | rxLen | rxCmd | rxPay | rxCsum
deriving DecidableEq, Repr

/-- The outcomes `res_code` can name (R26). `ok` and `sent` share the number 0 (R74; log 23). -/
inductive ResCode where
  | ok | sent
  | framingError | capacityError | correlationError | checksumError
  | oversizedPayload | timeout | noCommand
deriving DecidableEq, Repr

/-- A buffer's written cells: (index, byte) pairs, indices strictly rising. An unlisted index is unwritten and reads as no
value (R25, D13), so no entry equals what an unlisted index reads as. -/
abbrev Memory := List Host.Cell

/-- The canonical form: indices strictly rising. -/
def Memory.wf (m : Memory) : Bool := decide (m.Pairwise fun c d => c.1 < d.1)

/-- The meanings of the status table (R71, R179). No command is known to give `operationInProgress` or `rfOff` (N9), so the
mapping never answers them (log 21). -/
inductive StatusMeaning where
  | success | invalidResponse | invalidKey
  | loginSuccessful | operationInProgress | halted
  | noTag | rfOff | loginFailed
deriving DecidableEq, Repr

/-- What a response decoder returns: a tagged value (R170, R183). -/
inductive DecValue where
  /-- `DEC_TAG` on an empty payload (R172). -/
  | noResponse
  /-- A device status, data and not an error (R179, R206). -/
  | status (code : Byte)
  /-- A tag: kind and serial (R171). -/
  | tag (kind : Byte) (serial : List Byte)
  /-- The firmware version as a raw byte string (R174). -/
  | fwString (bytes : List Byte)
  /-- The firmware version as an unsigned 32-bit integer (R175). -/
  | fwU32 (version : Word32)
  /-- A card block: the number echoed and 16 data bytes (R177). -/
  | block (number : Byte) (data : List Byte)
  /-- A signed 32-bit value (R178). -/
  | value (v : Int)
  /-- A valid frame of a length the decoder does not know (R209). -/
  | unexpectedResponse
deriving DecidableEq, Repr

/-- What the caller is given at the end of an operation, or by a decoder (R247, R183; log 13). -/
inductive Report where
  /-- A SEND ended `Sent`. -/
  | sent
  /-- A RECV ended `Ok`: the echo, the logical length and the buffer's cells (R112). -/
  | received (cmd len : Byte) (payload : Memory)
  /-- An operation ended with an error (R200). -/
  | error (code : ResCode)
  /-- A decoder returned a value; for a status byte, its meaning where the mapping gives one (R179). -/
  | decoded (v : DecValue) (meaning : Option StatusMeaning)
deriving DecidableEq, Repr

/-- A move of the host (R248, R78). -/
inductive HostMove where
  /-- Presents the operation a request image names. -/
  | present (image : List Byte)
  /-- Presents it only when the operation before it succeeded, and gives it up otherwise: the steps of an exchange (R78;
  log 22). -/
  | presentIfOk (image : List Byte)
  /-- Resets the block (R230, R248). -/
  | reset
deriving DecidableEq, Repr

/-- Who makes the next move (00_scope.md section 4). -/
inductive Agent where
  | host | codec | transport | timer
deriving DecidableEq, Repr

/-- The whole machine. -/
structure State where
  /-- `last_cmd` (R10). -/
  lastCmd : Byte
  /-- `last_valid` (R11). -/
  lastValid : Bool
  /-- `seq` (R12). -/
  seq : Seq
  /-- `settle_pending` (R13). -/
  settlePending : Bool
  /-- `tx_cmd` (R14). -/
  txCmd : Byte
  /-- `tx_len` (R15). -/
  txLen : Byte
  /-- `tx_idx` (R16). -/
  txIdx : Byte
  /-- `tx_acc` (R17, R36). -/
  txAcc : Byte
  /-- `tx_buf`, the payload of the SEND in progress; `tx_plen` is its length (R18; log 10). -/
  txBuf : List Byte
  /-- `rx_cap` (R19). -/
  rxCap : Nat
  /-- `rx_len` (R20). -/
  rxLen : Byte
  /-- `rx_cmd` (R21). -/
  rxCmd : Byte
  /-- `rx_mismatch` (R22). -/
  rxMismatch : Bool
  /-- `rx_acc` (R23, R36). -/
  rxAcc : Byte
  /-- `rx_idx` (R24). -/
  rxIdx : Byte
  /-- `rx_buf`: the written cells among indices `0 .. rx_cap - 1` (R25). -/
  rxBuf : Memory
  /-- The MODEL's own: the RECV accepted last ended `Ok`, and no operation ended with another outcome since (R25, R170, D13; log
  11). -/
  rxReady : Bool
  /-- `res_code` (R26). -/
  resCode : ResCode
  /-- `res_len` (R27). -/
  resLen : Byte
  /-- `res_cmd` (R27). -/
  resCmd : Byte
  /-- `TXS` (R33). -/
  txs : List Byte
  /-- `RXS`, oldest byte first (R34). -/
  rxs : List Byte
  /-- The MODEL's own: what the caller was given, in order (R247; log 13). -/
  reports : List Report
  /-- The MODEL's own: the host's moves to come, head first (R247; log 7). -/
  hostQueue : List HostMove
  /-- The MODEL's own: the bytes the module will send, oldest first (R34, U14; log 20). -/
  lineIn : List Byte
  /-- The MODEL's own: whose turn each next step is (log 2). -/
  schedule : List Agent
deriving DecidableEq, Repr

/-- Why the machine stops. -/
inductive Fault where
  /-- Raised by a response decoder when there is no payload: no RECV was accepted, or `res_code` is not
  `Ok`: an operation ended with another outcome (R170, R25, R27, U7). Safe: the model stops where the hardware would read an
  arbitrary value. -/
  | noPayload
  /-- Raised by a read of `rx_buf` at an index that is unwritten or not below `rx_cap` (R25, D13, R56). Safe: no run from
  reset reaches it. -/
  | unwrittenCell
  /-- Raised by a read of `tx_buf` at an index not below `tx_plen` (R56). Safe: no run from reset reaches it. -/
  | txBufIndex
  /-- Raised by a write of `rx_buf` at an index not below `rx_cap` (R56). Safe: no run from reset reaches it. -/
  | rxBufIndex
deriving DecidableEq, Repr

/-- Why a step has no meaning. -/
inductive Refusal where
  /-- Raised by `exec` for an instruction with no meaning yet. Safe. -/
  | notModelled (mnemonic : String)
  /-- Raised by a host turn whose request image is no instruction (log 9). Safe: the spec gives the host no such move. -/
  | badRequest (e : DecodeError)
deriving DecidableEq, Repr

/-- The machine right after reset (R230, 10_state.md section 7). `seq`, `last_valid`, `settle_pending`, `rx_buf` and `TXS` are
the spec's; every other register holds 0 by DESIGN CHOICE (log 1), `RXS` is taken empty (log 20), and the model's own fields
are empty (log 7). -/
def State.reset : State where
  lastCmd := 0x00#8
  lastValid := false
  seq := .idle
  settlePending := false
  txCmd := 0x00#8
  txLen := 0x00#8
  txIdx := 0x00#8
  txAcc := 0x00#8
  txBuf := []
  rxCap := 0
  rxLen := 0x00#8
  rxCmd := 0x00#8
  rxMismatch := false
  rxAcc := 0x00#8
  rxIdx := 0x00#8
  rxBuf := []
  rxReady := false
  resCode := .sent
  resLen := 0x00#8
  resCmd := 0x00#8
  txs := []
  rxs := []
  reports := []
  hostQueue := []
  lineIn := []
  schedule := []

end Sys2Proof.Machine
end

