-- ==== Sys2Proof/Machine/Flags.lean ====
section
/-! DEFINITION. The one-bit conditions (10_state.md R28, R31) and the comparisons that set or read them. -/

namespace Sys2Proof.Machine

/-- `busy = (seq != IDLE)` (R28). -/
def State.busy (s : State) : Bool := decide (s.seq ≠ .idle)

/-- The seven states of a RECV, in which CANCEL has an effect (R90, R113). -/
def Seq.isReceive : Seq → Bool
  | .rxSettle | .rxHunt | .rxRsvd | .rxLen | .rxCmd | .rxPay | .rxCsum => true
  | .idle | .txHdr | .txRsvd | .txLen | .txCmd | .txPay | .txCsum => false

/-- The six states of a SEND. -/
def Seq.isTransmit : Seq → Bool
  | .txHdr | .txRsvd | .txLen | .txCmd | .txPay | .txCsum => true
  | .idle | .rxSettle | .rxHunt | .rxRsvd | .rxLen | .rxCmd | .rxPay | .rxCsum => false

/-- The six receive states that wait for a byte (R238): all but `RX_SETTLE`. -/
def Seq.readsByte : Seq → Bool
  | .rxHunt | .rxRsvd | .rxLen | .rxCmd | .rxPay | .rxCsum => true
  | .idle | .txHdr | .txRsvd | .txLen | .txCmd | .txPay | .txCsum | .rxSettle => false

/-- `rx_mismatch`: the echo differs from the outstanding command, all 8 bits compared (R22, R109). -/
def echoMismatch (echo lastCmd : Byte) : Bool := decide (echo ≠ lastCmd)

/-- The capacity test `rx_len - 1 > rx_cap` (R108, D11). -/
def exceedsCapacity (len : Byte) (cap : Nat) : Bool := decide (cap < len.toNat - 1)

/-- The outcomes that are a success: `Ok` and `Sent`, number 0 (R74). -/
def ResCode.isSuccess : ResCode → Bool
  | .ok | .sent => true
  | .framingError | .capacityError | .correlationError | .checksumError | .oversizedPayload | .timeout | .noCommand => false

/-- The 3-bit number of an outcome (R74, D3). -/
def ResCode.number : ResCode → BitVec 3
  | .ok => 0#3
  | .sent => 0#3
  | .framingError => 1#3
  | .capacityError => 2#3
  | .correlationError => 3#3
  | .checksumError => 4#3
  | .oversizedPayload => 5#3
  | .timeout => 6#3
  | .noCommand => 7#3

/-- `available()`: how many bytes can be read without blocking (R34, R45). No rule of the block reads it. -/
def State.available (s : State) : Nat := s.rxs.length

end Sys2Proof.Machine
end

