-- ==== Sys2Proof/Machine/Ops.lean ====
section
/-! DEFINITION. The shared operations: buffer cells, the transport primitives, the correlator's record, starting and ending an
operation, raising an error (the block's form of taking an exception, R211) and the block's reset (R230). -/

namespace Sys2Proof.Machine

/-- The three outcomes of a step of this machine. -/
abbrev Result := Host.Outcome State Fault Refusal

/-- The value a buffer cell holds; none where it is unwritten (R25). -/
def Memory.read : Memory → Nat → Option Byte
  | [], _ => none
  | (i, b) :: m, a => if a = i then some b else Memory.read m a

/-- Writes one cell, in canonical form. -/
def Memory.write : Memory → Nat → Byte → Memory
  | [], a, v => [(a, v)]
  | (i, b) :: m, a, v =>
    if a < i then (a, v) :: (i, b) :: m
    else if a = i then (a, v) :: m
    else (i, b) :: Memory.write m a v

/-- The control transfer `seq <- q` (00_scope.md section 7). -/
def State.goTo (s : State) (q : Seq) : State := { s with seq := q }

/-- `TxWrite(b)`: appends to `TXS`; never blocks (R33, R45, D17; log 17). -/
def State.txWrite (s : State) (b : Byte) : State := { s with txs := s.txs ++ [b] }

/-- `b <- RxRead()`, then `k b`: removes the head of `RXS`; on an empty `RXS` the block waits in its state (R34, R45, R238;
log 24). -/
def State.rxRead (s : State) (k : Byte → State → Result) : Result :=
  match s.rxs with
  | [] => .next s
  | b :: rest => k b { s with rxs := rest }

/-- Hands something to the caller (R247; log 13). -/
def State.report (s : State) (r : Report) : State := { s with reports := s.reports ++ [r] }

/-- The correlator's record: `last_cmd <- cmd; last_valid <- 1` (R91). -/
def State.recordCommand (s : State) (cmd : Byte) : State := { s with lastCmd := cmd, lastValid := true }

/-- Every cell of `rx_buf` becomes unwritten: there is no payload (R25, R102, D13). -/
def State.discardPayload (s : State) : State := { s with rxBuf := [], rxReady := false }

/-- `raise E`, for every error: ends the operation. `res_code <- code; seq <- IDLE`; `rx_buf` then holds nothing usable (R211, R25,
D13; log 11); nothing is saved and nothing else changes (R211); the caller is told (R221). -/
def State.raise (s : State) (code : ResCode) : State :=
  { s.discardPayload with resCode := code, seq := .idle, reports := s.reports ++ [.error code] }

/-- `done Sent` (R100): ending the operation is the return (R212). `Sent` is an outcome other than `Ok`, so no cell of `rx_buf`
holds a value then (R25, D13; log 11). The block keeps no copy of `tx_buf` (R18; log 10). -/
def State.endSent (s : State) : State :=
  { s.discardPayload with resCode := .sent, seq := .idle, txBuf := [], reports := s.reports ++ [.sent] }

/-- `done Ok` (R112): `res_cmd <- rx_cmd; res_len <- rx_len - 1`, and the payload is the caller's to read (R25). -/
def State.endOk (s : State) : State :=
  { s with
    resCode := .ok, resCmd := s.rxCmd, resLen := s.rxLen - 1#8, seq := .idle, rxReady := true,
    reports := s.reports ++ [.received s.rxCmd (s.rxLen - 1#8) s.rxBuf] }

/-- Start of transmission (R94); `tx_buf` is the caller's payload from now to the end of the SEND (R18; log 10). -/
def State.startTransmission (s : State) (cmd : Byte) (payload : List Byte) : State :=
  { s with
    txCmd := cmd
    txLen := lengthByte payload.length
    txAcc := BitVec.ofNat 8 (payload.length + 1 + cmd.toNat)
    txIdx := 0x00#8
    txBuf := payload
    seq := .txHdr }

/-- A SEND from acceptance: the command is recorded first (R91, D6), then the size is checked (R92), then the frame starts
(R94). -/
def State.acceptSend (s : State) (cmd : Byte) (payload : List Byte) : State :=
  if maxPayload < payload.length then (s.recordCommand cmd).raise .oversizedPayload
  else (s.recordCommand cmd).startTransmission cmd payload

/-- Start of reception (R102). -/
def State.startReception (s : State) (cap : Nat) : State :=
  { s.discardPayload with rxCap := cap, seq := if s.settlePending then .rxSettle else .rxHunt }

/-- A RECV from acceptance: the precondition (R101, D4), then the start (R102). -/
def State.acceptRecv (s : State) (cap : Nat) : State :=
  if s.lastValid then s.startReception cap else s.raise .noCommand

/-- `CANCEL` (R113): in a receive state the RECV ends `Timeout`; in `IDLE` and in the `TX_*` states it is ignored (R90). -/
def State.acceptCancel (s : State) : State :=
  if s.seq.isReceive then s.raise .timeout else s

/-- An operation presented while another runs is not accepted and has no effect (R90, R8; log 8). -/
def State.whenIdle (s : State) (k : State → Result) : Result :=
  if s.busy then .next s else k s

/-- The block's reset (R230): every register as after reset, the operation in progress abandoned with no result. Bytes written
stay written, bytes not read stay in `RXS` (R233, D24); the agents around the block keep theirs (log 19). -/
def State.blockReset (s : State) : State :=
  { State.reset with
    txs := s.txs, rxs := s.rxs, reports := s.reports, hostQueue := s.hostQueue, lineIn := s.lineIn, schedule := s.schedule }

end Sys2Proof.Machine
end

