-- ==== Sys2Proof/Machine/Operands.lean ====
section
/-! DEFINITION. How operands are put together: the payload a decoder reads (R170) and the two multi-byte quantities inside
payloads (R43, R76). -/

namespace Sys2Proof.Machine

/-- A read of `rx_buf[a]`: a cell below `rx_cap` that is written; else a fault (R25, R56, D13). -/
def State.readCell (s : State) (a : Nat) : Except Fault Byte :=
  if a < s.rxCap then
    match Memory.read s.rxBuf a with
    | some b => .ok b
    | none => .error .unwrittenCell
  else .error .unwrittenCell

/-- `rx_buf[a .. a + n - 1]`, in ascending index (R42). -/
def State.readCells (s : State) : Nat → Nat → Except Fault (List Byte)
  | _, 0 => .ok []
  | a, n + 1 =>
    match s.readCell a with
    | .error f => .error f
    | .ok b =>
      match s.readCells (a + 1) n with
      | .error f => .error f
      | .ok p => .ok (b :: p)

/-- The operand of every decoder: `rx_buf[0 .. res_len - 1]` of a RECV that ended `Ok` (R170). `res_len` is valid only together
with `res_code = Ok` (R27): after any other outcome, or where no RECV ended `Ok`, there is no payload, and this is a fault (U7). -/
def State.payload (s : State) : Except Fault (List Byte) :=
  if s.rxReady = true ∧ s.resCode = .ok then s.readCells 0 s.resLen.toNat else .error .noPayload

/-- `b0 * 2^24 + b1 * 2^16 + b2 * 2^8 + b3`, packed most significant byte first (R175). -/
def firmwareWord (b0 b1 b2 b3 : Byte) : Word32 :=
  (((b0.setWidth 32 <<< 8 ||| b1.setWidth 32) <<< 8 ||| b2.setWidth 32) <<< 8) ||| b3.setWidth 32

/-- `VALUE32(v)`: from the most significant index down to the least, shift the accumulator by 8 and OR in the byte; the 32-bit
pattern is read as two's complement (R178). -/
def value32 (v : List Byte) : Int :=
  BitVec.toInt (v.reverse.foldl (fun (acc : Word32) (b : Byte) => acc <<< 8 ||| b.setWidth 32) 0#32)

/-- The request payload of AUTHENTICATE: `[blockNumber, keyType, key[0..5]]` (R76, R145). -/
def authenticatePayload (blockNumber keyType : Byte) (key : Vector Byte 6) : List Byte :=
  blockNumber :: keyType :: key.toList

/-- The request payload of READ_BLOCK and READ_VALUE: `[blockNumber]` (R146, R147). -/
def blockNumberPayload (blockNumber : Byte) : List Byte := [blockNumber]

end Sys2Proof.Machine
end

