-- ==== Sys2Proof/Machine/Status.lean ====
section
/-! DEFINITION. The Status/Error Mapping: from a status byte and the outstanding command to a meaning (42_response_decoders.md
R179 to R181, D21). -/

namespace Sys2Proof.Machine

/-- The command code of AUTHENTICATE, the only login operation (R180). -/
def authenticateCode : Byte := 0x85#8

/-- The command code of HALT (R180). -/
def haltCode : Byte := 0x93#8

/-- The meaning of a status byte with `last_cmd` outstanding; none where the table gives it none and the bare byte is all
there is (R179 to R181). -/
def statusMeaning (lastCmd code : Byte) : Option StatusMeaning :=
  match code.toNat with
  | 0x00 => some .success
  | 0x01 => some .invalidResponse
  | 0x45 => some .invalidKey
  | 0x4C =>
    if lastCmd = authenticateCode then some .loginSuccessful
    else if lastCmd = haltCode then some .halted
    else none
  | 0x4E => some .noTag
  | 0x55 => if lastCmd = authenticateCode then some .loginFailed else none
  | _ => none

/-- The meaning that goes with a decoder's value: only a status has one (R183). -/
def DecValue.meaning (lastCmd : Byte) : DecValue → Option StatusMeaning
  | .status code => statusMeaning lastCmd code
  | .noResponse => none
  | .tag _ _ => none
  | .fwString _ => none
  | .fwU32 _ => none
  | .block _ _ => none
  | .value _ => none
  | .unexpectedResponse => none

end Sys2Proof.Machine
end

