-- ==== Sys2Proof/Machine/Decoders.lean ====
section
/-! DEFINITION. The six response decoders as functions of a payload (42_response_decoders.md R172 to R178; `L` is the length of
the payload, R170), and their meanings as instructions: the caller applies one to the payload of the last RECV and is given the
value (R78, R170). They write no register (R170). -/

namespace Sys2Proof.Machine

/-- `DEC_TAG` (R172, R182). -/
def tagValue : List Byte → DecValue
  | [] => .noResponse
  | [code] => .status code
  | kind :: serial => .tag kind serial

/-- `DEC_FW_STRING`: the payload verbatim, of any length (R174). -/
def fwStringValue (p : List Byte) : DecValue := .fwString p

/-- `DEC_FW_U32` with the offsets `FW_IDX` (R175). -/
def fwU32Value (idx : FwIdx) (p : List Byte) : DecValue :=
  if p.length ≤ max (max idx.i0 idx.i1) (max idx.i2 idx.i3) then .unexpectedResponse
  else .fwU32 (firmwareWord (p.getD idx.i0 0) (p.getD idx.i1 0) (p.getD idx.i2 0) (p.getD idx.i3 0))

/-- `DEC_AUTH` (R176). -/
def authValue : List Byte → DecValue
  | [code] => .status code
  | _ => .unexpectedResponse

/-- `DEC_READ_BLOCK`: 17 bytes are a block, 1 byte a status (R177). -/
def readBlockValue : List Byte → DecValue
  | [] => .unexpectedResponse
  | [code] => .status code
  | number :: data => if data.length = 16 then .block number data else .unexpectedResponse

/-- `DEC_READ_VALUE` with the offset `VALUE_OFFSET` (R178). -/
def readValueValue (offset : Nat) (p : List Byte) : DecValue :=
  match p with
  | [code] => .status code
  | _ => if p.length = offset + 4 then .value (value32 (p.drop offset)) else .unexpectedResponse

/-- Applies a decoder to the payload of the last RECV and gives the caller its value and, for a status, its meaning under the
outstanding command (R170, R183, R245). While an operation runs the caller has no control (R8; log 8). -/
def applyDecoder (f : List Byte → DecValue) (s : State) : Result :=
  s.whenIdle fun s =>
    match s.payload with
    | .error e => .fault e
    | .ok p => .next (s.report (.decoded (f p) ((f p).meaning s.lastCmd)))

/-- DEC_TAG (R172). -/
def execDecTag (s : State) : Result := applyDecoder tagValue s

/-- DEC_FW_STRING (R174). -/
def execDecFwString (s : State) : Result := applyDecoder fwStringValue s

/-- DEC_FW_U32 (R175), with the device's offsets. -/
def execDecFwU32 (s : State) : Result := applyDecoder (fwU32Value Config.fwIdx) s

/-- DEC_AUTH (R176). -/
def execDecAuth (s : State) : Result := applyDecoder authValue s

/-- DEC_READ_BLOCK (R177). -/
def execDecReadBlock (s : State) : Result := applyDecoder readBlockValue s

/-- DEC_READ_VALUE (R178), with the device's offset. -/
def execDecReadValue (s : State) : Result := applyDecoder (readValueValue Config.valueOffset) s

end Sys2Proof.Machine
end

