-- ==== Sys2Proof/Machine/Sequencer.lean ====
section
/-! DEFINITION. The sequencer: one move per state, one byte a move (40_codec_ops.md R95 to R112, all transitions in R117). -/

namespace Sys2Proof.Machine

/-- `TX_HDR` (R95). -/
def moveTxHdr (s : State) : Result := .next ((s.txWrite header).goTo .txRsvd)

/-- `TX_RSVD` (R96). -/
def moveTxRsvd (s : State) : Result := .next ((s.txWrite reservedByte).goTo .txLen)

/-- `TX_LEN` (R97). -/
def moveTxLen (s : State) : Result := .next ((s.txWrite s.txLen).goTo .txCmd)

/-- `TX_CMD`: an empty payload goes straight to the checksum (R98). -/
def moveTxCmd (s : State) : Result :=
  .next ((s.txWrite s.txCmd).goTo (if 0 < s.txLen.toNat - 1 then .txPay else .txCsum))

/-- `TX_PAY`: one payload byte, unchanged, added into the accumulator (R99, R53). -/
def moveTxPay (s : State) : Result :=
  match s.txBuf[s.txIdx.toNat]? with
  | none => .fault .txBufIndex
  | some b =>
    .next { s.txWrite b with
      txAcc := s.txAcc + b
      txIdx := s.txIdx + 1#8
      seq := if s.txIdx.toNat + 1 = s.txLen.toNat - 1 then .txCsum else .txPay }

/-- `TX_CSUM`: the accumulator, then the settle interval starts and the SEND ends (R100). -/
def moveTxCsum (s : State) : Result :=
  .next { (s.txWrite s.txAcc).endSent with settlePending := true }

/-- `RX_SETTLE`: waits, reading nothing, until the settle interval has passed (R103). -/
def moveRxSettle (s : State) : Result :=
  if s.settlePending then .next s else .next (s.goTo .rxHunt)

/-- `RX_HUNT`: discards bytes until a header (R106). -/
def moveRxHunt (s : State) : Result :=
  s.rxRead fun b s => .next (s.goTo (if b = header then .rxRsvd else .rxHunt))

/-- `RX_RSVD`: the byte after the header must be the reserved byte; no second resync (R107). -/
def moveRxRsvd (s : State) : Result :=
  s.rxRead fun b s => .next (if b = reservedByte then s.goTo .rxLen else s.raise .framingError)

/-- `RX_LEN`: length 0 is a framing error (D5), a payload that would not fit a capacity error (R108). -/
def moveRxLen (s : State) : Result :=
  s.rxRead fun b s =>
    .next (if b.toNat = 0 then ({ s with rxLen := b } : State).raise .framingError
      else if exceedsCapacity b s.rxCap then ({ s with rxLen := b } : State).raise .capacityError
      else ({ s with rxLen := b } : State).goTo .rxCmd)

/-- `RX_CMD`: the echo; a mismatch is held, not raised, so that the frame is consumed whole (R109). -/
def moveRxCmd (s : State) : Result :=
  s.rxRead fun b s =>
    .next { s with
      rxCmd := b
      rxMismatch := echoMismatch b s.lastCmd
      rxAcc := s.rxLen + b
      rxIdx := 0x00#8
      seq := if 0 < s.rxLen.toNat - 1 then .rxPay else .rxCsum }

/-- `RX_PAY`: one payload byte, stored unless the echo mismatched, added into the accumulator (R110). -/
def moveRxPay (s : State) : Result :=
  s.rxRead fun b s =>
    if s.rxMismatch = false ∧ s.rxCap ≤ s.rxIdx.toNat then .fault .rxBufIndex
    else .next { s with
      rxAcc := s.rxAcc + b
      rxBuf := if s.rxMismatch then s.rxBuf else Memory.write s.rxBuf s.rxIdx.toNat b
      rxIdx := s.rxIdx + 1#8
      seq := if s.rxIdx.toNat + 1 = s.rxLen.toNat - 1 then .rxCsum else .rxPay }

/-- `RX_CSUM`: a mismatched echo is a correlation error whatever the checksum byte is (R111); else the checksum decides. -/
def moveRxCsum (s : State) : Result :=
  s.rxRead fun b s =>
    .next (if s.rxMismatch then s.raise .correlationError
      else if b ≠ s.rxAcc then s.raise .checksumError
      else s.endOk)

/-- One move of the codec. In `IDLE` it has none. -/
def codecStep (s : State) : Result :=
  match s.seq with
  | .idle => .next s
  | .txHdr => moveTxHdr s
  | .txRsvd => moveTxRsvd s
  | .txLen => moveTxLen s
  | .txCmd => moveTxCmd s
  | .txPay => moveTxPay s
  | .txCsum => moveTxCsum s
  | .rxSettle => moveRxSettle s
  | .rxHunt => moveRxHunt s
  | .rxRsvd => moveRxRsvd s
  | .rxLen => moveRxLen s
  | .rxCmd => moveRxCmd s
  | .rxPay => moveRxPay s
  | .rxCsum => moveRxCsum s

end Sys2Proof.Machine
end

