-- ==== Sys2Proof/Machine/Agents.lean ====
section
/-! DEFINITION. The agents around the codec and whose turn it is (00_scope.md section 4; log 2, 3). -/

namespace Sys2Proof.Machine

/-- The codec has a move to make: it transmits, or a byte it waits for is there, or the settle interval it waits out is over. -/
def State.codecEnabled (s : State) : Bool :=
  s.seq.isTransmit || (s.seq.readsByte && !s.rxs.isEmpty) || (decide (s.seq = .rxSettle) && !s.settlePending)

/-- Who moves next: the head of the schedule; with the schedule exhausted the codec while it has a move, then the settle timer
while it is running, which keeps the timer's weak fairness (R104, R242; log 3). -/
def State.nextAgent (s : State) : Agent :=
  match s.schedule with
  | a :: _ => a
  | [] => if s.codecEnabled then .codec else if s.settlePending then .timer else .codec

/-- The turn is taken. -/
def State.tick (s : State) : State := { s with schedule := s.schedule.tail }

/-- `SETTLE_ELAPSED`: `settle_pending <- 0` and nothing else; not enabled when it is 0 already (R104). -/
def State.settleElapsed (s : State) : State := { s with settlePending := false }

/-- The transport receives one byte from the module and appends it to `RXS` (R34, R9). -/
def State.deliver (s : State) : State :=
  match s.lineIn with
  | [] => s
  | b :: rest => { s with rxs := s.rxs ++ [b], lineIn := rest }

/-- The request at the head of the host's queue is taken: only `CANCEL` while an operation runs, anything in `IDLE`; a SEND or
RECV that is not accepted stays presented (R90, D12; log 8). -/
def State.takesRequest (s : State) : Instr → Bool
  | .cancel => true
  | .send _ _ | .recv _ => !s.busy
  | .reset _ | .getFirmware _ | .seekTag _ | .selectTag _ | .authenticate _ | .readBlock _ | .readValue _ => !s.busy
  | .writeBlock _ | .writeValue _ | .writeUltralight _ | .writeKey _ | .increment _ | .decrement _ => !s.busy
  | .antenna _ | .readPort _ | .writePort _ | .halt _ | .setBaudRate _ | .sleep _ => !s.busy
  | .decTag | .decFwString | .decFwU32 | .decAuth | .decReadBlock | .decReadValue => !s.busy

/-- The state in which a presented instruction is executed: the request leaves the queue (`rest` is what stays) if it is
taken. -/
def State.fetched (s : State) (i : Instr) (rest : List HostMove) : State :=
  { s with hostQueue := if s.takesRequest i then rest else s.hostQueue }

end Sys2Proof.Machine
end

