-- ==== Sys2Proof/Machine/HostOps.lean ====
section
/-! DEFINITION. The meanings of the three host operations: what presenting one does (40_codec_ops.md R90). The byte moves that
follow acceptance are Machine/Sequencer.lean's. -/

namespace Sys2Proof.Machine

/-- A SEND presented: accepted in `IDLE` (R90), then R91, R92, R94. -/
def issueCommand (cmd : Byte) (payload : List Byte) (s : State) : Result :=
  s.whenIdle fun s => .next (s.acceptSend cmd payload)

/-- SEND (R91). -/
def execSend (cmd : Byte) (payload : List Byte) (s : State) : Result := issueCommand cmd payload s

/-- RECV (R101, R102), accepted in `IDLE` (R90). -/
def execRecv (cap : Nat) (s : State) : Result := s.whenIdle fun s => .next (s.acceptRecv cap)

/-- CANCEL (R113), at any time (R90, R248). -/
def execCancel (s : State) : Result := .next s.acceptCancel

end Sys2Proof.Machine
end

