-- ==== Sys2Proof/Machine/Commands.lean ====
section
/-! DEFINITION. The meanings of the 19 command frames: each is a SEND of its code with the payload given (41_commands.md R140).
None acts on the block in any other way: RESET, HALT, SLEEP, ANTENNA and SET_BAUD_RATE act on the module (R140). -/

namespace Sys2Proof.Machine

/-- RESET, code 0x80 (R141). -/
def execReset (payload : List Byte) (s : State) : Result := issueCommand 0x80#8 payload s

/-- GET_FIRMWARE, code 0x81 (R142). -/
def execGetFirmware (payload : List Byte) (s : State) : Result := issueCommand 0x81#8 payload s

/-- SEEK_TAG, code 0x82 (R143). -/
def execSeekTag (payload : List Byte) (s : State) : Result := issueCommand 0x82#8 payload s

/-- SELECT_TAG, code 0x83 (R144). -/
def execSelectTag (payload : List Byte) (s : State) : Result := issueCommand 0x83#8 payload s

/-- AUTHENTICATE, code 0x85 (R145). -/
def execAuthenticate (payload : List Byte) (s : State) : Result := issueCommand 0x85#8 payload s

/-- READ_BLOCK, code 0x86 (R146). -/
def execReadBlock (payload : List Byte) (s : State) : Result := issueCommand 0x86#8 payload s

/-- READ_VALUE, code 0x87 (R147). -/
def execReadValue (payload : List Byte) (s : State) : Result := issueCommand 0x87#8 payload s

/-- WRITE_BLOCK, code 0x89 (R148). -/
def execWriteBlock (payload : List Byte) (s : State) : Result := issueCommand 0x89#8 payload s

/-- WRITE_VALUE, code 0x8A (R149). -/
def execWriteValue (payload : List Byte) (s : State) : Result := issueCommand 0x8A#8 payload s

/-- WRITE_ULTRALIGHT, code 0x8B (R150). -/
def execWriteUltralight (payload : List Byte) (s : State) : Result := issueCommand 0x8B#8 payload s

/-- WRITE_KEY, code 0x8C (R151). -/
def execWriteKey (payload : List Byte) (s : State) : Result := issueCommand 0x8C#8 payload s

/-- INCREMENT, code 0x8D (R152). -/
def execIncrement (payload : List Byte) (s : State) : Result := issueCommand 0x8D#8 payload s

/-- DECREMENT, code 0x8E (R153). -/
def execDecrement (payload : List Byte) (s : State) : Result := issueCommand 0x8E#8 payload s

/-- ANTENNA, code 0x90 (R154). -/
def execAntenna (payload : List Byte) (s : State) : Result := issueCommand 0x90#8 payload s

/-- READ_PORT, code 0x91 (R155). -/
def execReadPort (payload : List Byte) (s : State) : Result := issueCommand 0x91#8 payload s

/-- WRITE_PORT, code 0x92 (R156). -/
def execWritePort (payload : List Byte) (s : State) : Result := issueCommand 0x92#8 payload s

/-- HALT, code 0x93 (R157). -/
def execHalt (payload : List Byte) (s : State) : Result := issueCommand 0x93#8 payload s

/-- SET_BAUD_RATE, code 0x94 (R158). -/
def execSetBaudRate (payload : List Byte) (s : State) : Result := issueCommand 0x94#8 payload s

/-- SLEEP, code 0x96 (R159). -/
def execSleep (payload : List Byte) (s : State) : Result := issueCommand 0x96#8 payload s

end Sys2Proof.Machine
end

