-- ==== Sys2Proof/Machine/Dispatch.lean ====
section
/-! DEFINITION. One arm per instruction, one direct call of its meaning. -/

namespace Sys2Proof.Machine

def exec (i : Instr) (s : State) : Host.Outcome State Fault Refusal :=
  match i with
  | .send cmd payload => Sys2Proof.Machine.execSend cmd payload s
  | .recv cap => Sys2Proof.Machine.execRecv cap s
  | .cancel => Sys2Proof.Machine.execCancel s
  | .reset payload => Sys2Proof.Machine.execReset payload s
  | .getFirmware payload => Sys2Proof.Machine.execGetFirmware payload s
  | .seekTag payload => Sys2Proof.Machine.execSeekTag payload s
  | .selectTag payload => Sys2Proof.Machine.execSelectTag payload s
  | .authenticate payload => Sys2Proof.Machine.execAuthenticate payload s
  | .readBlock payload => Sys2Proof.Machine.execReadBlock payload s
  | .readValue payload => Sys2Proof.Machine.execReadValue payload s
  | .writeBlock payload => Sys2Proof.Machine.execWriteBlock payload s
  | .writeValue payload => Sys2Proof.Machine.execWriteValue payload s
  | .writeUltralight payload => Sys2Proof.Machine.execWriteUltralight payload s
  | .writeKey payload => Sys2Proof.Machine.execWriteKey payload s
  | .increment payload => Sys2Proof.Machine.execIncrement payload s
  | .decrement payload => Sys2Proof.Machine.execDecrement payload s
  | .antenna payload => Sys2Proof.Machine.execAntenna payload s
  | .readPort payload => Sys2Proof.Machine.execReadPort payload s
  | .writePort payload => Sys2Proof.Machine.execWritePort payload s
  | .halt payload => Sys2Proof.Machine.execHalt payload s
  | .setBaudRate payload => Sys2Proof.Machine.execSetBaudRate payload s
  | .sleep payload => Sys2Proof.Machine.execSleep payload s
  | .decTag => Sys2Proof.Machine.execDecTag s
  | .decFwString => Sys2Proof.Machine.execDecFwString s
  | .decFwU32 => Sys2Proof.Machine.execDecFwU32 s
  | .decAuth => Sys2Proof.Machine.execDecAuth s
  | .decReadBlock => Sys2Proof.Machine.execDecReadBlock s
  | .decReadValue => Sys2Proof.Machine.execDecReadValue s

end Sys2Proof.Machine
end

