-- ==== Sys2Proof/Machine/HostTurn.lean ====
section
/-! DEFINITION. A turn of the host: fetching the request it presents, decoding it and executing it (40_codec_ops.md R90,
70_reset_and_hazards.md R248). -/

namespace Sys2Proof.Machine

/-- The host presents a request image; `rest` are its later moves. `op = 00` asks for nothing (R73); an image that is no
instruction is refused (log 9). -/
def presentRequest (image : List Byte) (rest : List HostMove) (s : State) : Result :=
  match decode image with
  | .ok (i, _) => exec i (s.fetched i rest)
  | .error .noOperation => .next { s with hostQueue := rest }
  | .error e => .refused (.badRequest e)

/-- One turn of the host. A step of an exchange waits for the operation before it to end, and is given up when that operation
failed (R78; log 22). -/
def hostTurn (s : State) : Result :=
  match s.hostQueue with
  | [] => .next s
  | .reset :: rest => .next ({ s with hostQueue := rest } : State).blockReset
  | .present image :: rest => presentRequest image rest s
  | .presentIfOk image :: rest =>
    if s.busy then .next s
    else if s.resCode.isSuccess then presentRequest image rest s
    else .next { s with hostQueue := rest }

/-- One turn of an agent (00_scope.md section 4). -/
def agentTurn (a : Agent) (s : State) : Result :=
  match a with
  | .host => hostTurn s
  | .codec => codecStep s
  | .transport => .next s.deliver
  | .timer => .next s.settleElapsed

/-- Puts a request image where the next step fetches: at the head of the host's queue, with the host's turn next. -/
def State.withRequest (s : State) (image : List Byte) : State :=
  { s with hostQueue := .present image :: s.hostQueue, schedule := .host :: s.schedule }

end Sys2Proof.Machine
end

