-- ==== Sys2Proof/Machine/Step.lean ====
section
/-! DEFINITION. One step of the whole machine: the agent whose turn it is makes its move (log 2). -/

namespace Sys2Proof.Machine

/-- One step. -/
def step (s : State) : Host.Outcome State Fault Refusal := agentTurn s.nextAgent s.tick

/-- `s` with the instruction of a table word stored where `step` fetches: presented by the host, whose turn is next. -/
def State.withFetchWord (s : State) (nbits w : Nat) : State := s.withRequest (tableWordImage nbits w)

end Sys2Proof.Machine
end

