-- ==== Sys2Proof/Machine/Exchange.lean ====
section
/-! DEFINITION. The pseudo-operations: each expands to the same sequence of host moves (30_encoding.md R78), and a tag read is
followed by a module reset when the policy says so (42_response_decoders.md R173, R240). -/

namespace Sys2Proof.Machine

/-- `XCHG <cmd>, [payload], <cap>, <decoder>`: SEND, then RECV, then the decoder only when RECV gave `Ok`; a failed SEND ends
the exchange (R78). Capacities above 255 behave as 255 (D11), and every payload above 254 bytes ends `OversizedPayload` (R92), so
both are cut to what a request image holds (log 4). -/
def xchg (cmd : Byte) (payload : List Byte) (cap : Nat) (decoder : Instr) : List HostMove :=
  [.present (encode (.send cmd (payload.take maxSendImagePayload))),
    .presentIfOk (encode (.recv (min cap maxImageCap))),
    .presentIfOk (encode decoder)]

/-- The `SEND RESET` that follows a tag read when `POST_READ_RESET` is true (R173, R78). The source gives it no payload and no
RECV after it (N14; log 22). -/
def postReadReset (policy : Bool) (resetPayload : List Byte) : List HostMove :=
  if policy then [.present (encode (.send 0x80#8 (resetPayload.take maxSendImagePayload)))] else []

/-- The named exchanges of R78. -/
inductive Exchange where
  | getFirmwareString (cap : Nat)
  | getFirmwareU32 (cap : Nat)
  | readTagBySeek (payload resetPayload : List Byte) (cap : Nat)
  | readTagBySelect (payload resetPayload : List Byte) (cap : Nat)
  | auth (blockNumber keyType : Byte) (key : Vector Byte 6) (cap : Nat)
  | readBlk (blockNumber : Byte) (cap : Nat)
  | readVal (blockNumber : Byte) (cap : Nat)
deriving DecidableEq, Repr

/-- The expansion of a named exchange under a post-read reset policy (R78). -/
def Exchange.movesWith (policy : Bool) : Exchange → List HostMove
  | .getFirmwareString cap => xchg 0x81#8 [] cap .decFwString
  | .getFirmwareU32 cap => xchg 0x81#8 [] cap .decFwU32
  | .readTagBySeek payload resetPayload cap => xchg 0x82#8 payload cap .decTag ++ postReadReset policy resetPayload
  | .readTagBySelect payload resetPayload cap => xchg 0x83#8 payload cap .decTag ++ postReadReset policy resetPayload
  | .auth blockNumber keyType key cap => xchg 0x85#8 (authenticatePayload blockNumber keyType key) cap .decAuth
  | .readBlk blockNumber cap => xchg 0x86#8 (blockNumberPayload blockNumber) cap .decReadBlock
  | .readVal blockNumber cap => xchg 0x87#8 (blockNumberPayload blockNumber) cap .decReadValue

/-- The expansion under the device's policy `POST_READ_RESET` (R173; log 14). -/
def Exchange.moves (e : Exchange) : List HostMove := e.movesWith Config.postReadReset

end Sys2Proof.Machine
end

