-- ==== Sys2Proof/Machine/Reception.lean ====
section
/-! DEFINITION. The decoder as a function of the bytes the transport delivers (40_codec_ops.md R105). The sequencer of
Machine/Sequencer.lean is the same decoder one byte a step; that the two agree (R122) is a statement, not a definition. -/

namespace Sys2Proof.Machine

/-- What the decoder returns on a byte sequence (R105). -/
inductive FrameResult where
  /-- The sequence ends before the outcome is known: the block waits (R105, D22). -/
  | blocked
  /-- `Ok(ce, p, |p|)`, and how many bytes were consumed. -/
  | ok (echo : Byte) (payload : List Byte) (consumed : Nat)
  /-- An error, and how many bytes were consumed. -/
  | error (code : ResCode) (consumed : Nat)
deriving DecidableEq, Repr

/-- Step 1: discards bytes up to and including the first header; the count of bytes read and the bytes that follow. -/
def huntHeader : List Byte → Nat → Option (Nat × List Byte)
  | [], _ => none
  | b :: rest, i => if b = header then some (i + 1, rest) else huntHeader rest (i + 1)

/-- Steps 6 to 8, after the echo `ce` was read and `i` bytes consumed: `L = len - 1` payload bytes, then the checksum byte. A
mismatched echo wins over a wrong checksum (R111, R210). -/
def decodeBody (lastCmd len ce : Byte) (i : Nat) (bytes : List Byte) : FrameResult :=
  match bytes.drop (len.toNat - 1) with
  | [] => .blocked
  | ck :: _ =>
    if echoMismatch ce lastCmd then .error .correlationError (i + len.toNat)
    else if ck ≠ checksum len ce (bytes.take (len.toNat - 1)) then .error .checksumError (i + len.toNat)
    else .ok ce (bytes.take (len.toNat - 1)) (i + len.toNat)

/-- Steps 3 to 5, after the reserved byte: length byte, capacity, echo. -/
def decodeLength (lastCmd : Byte) (cap i : Nat) : List Byte → FrameResult
  | [] => .blocked
  | len :: rest =>
    if len.toNat = 0 then .error .framingError (i + 1)
    else if exceedsCapacity len cap then .error .capacityError (i + 1)
    else match rest with
      | [] => .blocked
      | ce :: body => decodeBody lastCmd len ce (i + 2) body

/-- Step 2, after the header: the reserved byte. -/
def decodeReserved (lastCmd : Byte) (cap i : Nat) : List Byte → FrameResult
  | [] => .blocked
  | b :: rest => if b ≠ reservedByte then .error .framingError (i + 1) else decodeLength lastCmd cap (i + 1) rest

/-- `decode(last_cmd, cap, S)` (R105). -/
def decodeFrame (lastCmd : Byte) (cap : Nat) (bytes : List Byte) : FrameResult :=
  match huntHeader bytes 0 with
  | none => .blocked
  | some (i, rest) => decodeReserved lastCmd cap i rest

end Sys2Proof.Machine
end

