-- ==== Sys2Proof/Safety.lean ====
section
/-! DEFINITION. The terms claims are stated in: runs of the codec alone, when a run is over or waits (R247, R238), and the
invariant of every state a run from reset can reach. -/

namespace Sys2Proof.Machine

/-- `n` moves of the codec, nothing else moving. -/
def codecMoves : Nat → State → Result
  | 0, s => .next s
  | n + 1, s =>
    match codecStep s with
    | .next t => codecMoves n t
    | .fault f => .fault f
    | .refused r => .refused r

/-- A run is over: the host presents no further operation and `seq = IDLE` (R247). -/
def State.finished (s : State) : Bool := decide (s.hostQueue = []) && decide (s.seq = .idle)

/-- A RECV waits for a byte that is not there (R238), or for the settle interval (R103). It has not ended (R247). -/
def State.waiting (s : State) : Bool :=
  (s.seq.readsByte && s.rxs.isEmpty) || (decide (s.seq = .rxSettle) && s.settlePending)

/-- The command code and the payload of a FRAME row (R69). -/
def commandFrame : Instr → Option (Byte × List Byte)
  | .reset p => some (0x80#8, p)
  | .getFirmware p => some (0x81#8, p)
  | .seekTag p => some (0x82#8, p)
  | .selectTag p => some (0x83#8, p)
  | .authenticate p => some (0x85#8, p)
  | .readBlock p => some (0x86#8, p)
  | .readValue p => some (0x87#8, p)
  | .writeBlock p => some (0x89#8, p)
  | .writeValue p => some (0x8A#8, p)
  | .writeUltralight p => some (0x8B#8, p)
  | .writeKey p => some (0x8C#8, p)
  | .increment p => some (0x8D#8, p)
  | .decrement p => some (0x8E#8, p)
  | .antenna p => some (0x90#8, p)
  | .readPort p => some (0x91#8, p)
  | .writePort p => some (0x92#8, p)
  | .halt p => some (0x93#8, p)
  | .setBaudRate p => some (0x94#8, p)
  | .sleep p => some (0x96#8, p)
  | .send _ _ => none
  | .recv _ => none
  | .cancel => none
  | .decTag => none
  | .decFwString => none
  | .decFwU32 => none
  | .decAuth => none
  | .decReadBlock => none
  | .decReadValue => none

/-- The command an instruction sends, if it sends one: a SEND or a command frame (R140). -/
def sentCommand : Instr → Option (Byte × List Byte)
  | .send cmd p => some (cmd, p)
  | i => commandFrame i

/-- The cells `0 .. |p| - 1` holding the bytes of `p`. -/
def cellsOf (p : List Byte) : Memory := (List.range p.length).zip p

/-- The caller can read the payload `p`: the operation that ended last was a RECV that ended `Ok`, and `rx_buf[0 .. res_len - 1]`
holds `p` (R25, R27, R170). -/
abbrev State.holdsPayload (s : State) (p : List Byte) : Prop :=
  s.rxReady = true ∧ s.resCode = .ok ∧ s.rxBuf = cellsOf p ∧ s.resLen.toNat = p.length ∧ p.length ≤ s.rxCap

/-- Exactly the cells `0 .. n - 1` are written. -/
abbrev Memory.writtenTo (m : Memory) (n : Nat) : Prop := m.map Prod.fst = List.range n

/-- The transmit registers during a SEND: the latched command and length, and the accumulator holding the sum of what was
written so far (R14 to R17, R94, R99). -/
abbrev State.transmitInv (s : State) : Prop :=
  s.seq.isTransmit = true →
    s.lastValid = true ∧ s.txCmd = s.lastCmd ∧ s.txBuf.length ≤ maxPayload ∧ s.txLen = lengthByte s.txBuf.length ∧
    s.txAcc = checksum s.txLen s.txCmd (s.txBuf.take s.txIdx.toNat) ∧
    (s.seq = .txHdr ∨ s.seq = .txRsvd ∨ s.seq = .txLen ∨ s.seq = .txCmd → s.txIdx = 0x00#8) ∧
    (s.seq = .txPay → s.txIdx.toNat < s.txBuf.length) ∧
    (s.seq = .txCsum → s.txIdx.toNat = s.txBuf.length)

/-- The receive registers during a RECV: a command is outstanding, no byte is read while the settle interval runs, and the
buffer and the accumulator hold the part of the frame read so far (R19 to R25, R101 to R110). -/
abbrev State.receiveInv (s : State) : Prop :=
  s.seq.isReceive = true →
    s.lastValid = true ∧ s.rxReady = false ∧
    (s.seq ≠ .rxSettle → s.settlePending = false) ∧
    (s.seq = .rxSettle ∨ s.seq = .rxHunt ∨ s.seq = .rxRsvd ∨ s.seq = .rxLen ∨ s.seq = .rxCmd → s.rxBuf = []) ∧
    (s.seq = .rxCmd ∨ s.seq = .rxPay ∨ s.seq = .rxCsum → 1 ≤ s.rxLen.toNat ∧ s.rxLen.toNat - 1 ≤ s.rxCap) ∧
    (s.seq = .rxPay ∨ s.seq = .rxCsum →
      s.rxMismatch = echoMismatch s.rxCmd s.lastCmd ∧
      (s.rxMismatch = true → s.rxBuf = []) ∧
      (s.rxMismatch = false →
        s.rxBuf.writtenTo s.rxIdx.toNat ∧ s.rxAcc = checksum s.rxLen s.rxCmd (s.rxBuf.map Prod.snd))) ∧
    (s.seq = .rxPay → s.rxIdx.toNat + 1 < s.rxLen.toNat) ∧
    (s.seq = .rxCsum → s.rxIdx.toNat + 1 = s.rxLen.toNat)

/-- Outside a RECV: the buffer holds a whole payload of `res_len` bytes that fits the capacity, and `res_code` is `Ok`; or it
holds nothing (R25, R27, D13). -/
abbrev State.payloadInv (s : State) : Prop :=
  s.seq.isReceive = false →
    (s.rxReady = true →
      s.resCode = .ok ∧ s.lastValid = true ∧ s.rxBuf.writtenTo s.resLen.toNat ∧ s.resLen.toNat ≤ s.rxCap ∧
      s.resLen.toNat ≤ maxPayload) ∧
    (s.rxReady = false → s.rxBuf = [])

/-- What holds of every state a run from reset reaches. -/
structure State.Inv (s : State) : Prop where
  /-- The receive buffer is in canonical form. -/
  bufferCanonical : s.rxBuf.wf = true
  /-- The transmit registers. -/
  transmit : s.transmitInv
  /-- The receive registers. -/
  receive : s.receiveInv
  /-- The payload outside a RECV. -/
  payload : s.payloadInv

end Sys2Proof.Machine
end

