-- ==== Sys2Proof/Certificates/Slice0/Obligations.lean ====
section
/-! DEFINITION. The statements for the provers. Each says what a rule of spec/ says; what is the model's own choice is said to
be so, with its log entry. Results are written as whole next states, so that each statement is its own frame: every field the
update does not name is unchanged, `rx_buf` and the streams among them. -/

open Sys2Proof Sys2Proof.Machine

/-! ### Encodings -/

/-- Decoding the image of a well-formed instruction gives it back, whatever bytes follow (image layouts: log 4, 5, 6; for a
command the image is the frame of R60, its command byte the code of R69). -/
def Obligations.DecodeInvertsEncode : Prop :=
  ∀ (i : Instr) (rest : List Byte), i.wellFormed = true → decode (encode i ++ rest) = .ok (i, rest)

/-- The decoder answers only instructions whose operands fit an image. -/
def Obligations.DecodedInstructionIsWellFormed : Prop :=
  ∀ (bytes rest : List Byte) (i : Instr), decode bytes = .ok (i, rest) → i.wellFormed = true

/-- A frame image is an instruction exactly when its reserved byte is `00` and its command byte is one of the 19 codes; its
length byte and everything after it may be anything (R69, R70, R75's mask). -/
def Obligations.FrameImageMatchedByMask : Prop :=
  ∀ (rsvd len code : Byte) (body : List Byte), 256 ≤ body.length →
    ((∃ i rest, decode (0xFF#8 :: rsvd :: len :: code :: body) = .ok (i, rest)) ↔
      rsvd = 0x00#8 ∧ code ∈ [0x80#8, 0x81#8, 0x82#8, 0x83#8, 0x85#8, 0x86#8, 0x87#8, 0x89#8, 0x8A#8, 0x8B#8, 0x8C#8,
        0x8D#8, 0x8E#8, 0x90#8, 0x91#8, 0x92#8, 0x93#8, 0x94#8, 0x96#8])

/-- A few words written out from the spec decode to the instruction they stand for: the source's frame `FF 00 01 81 82` (S1),
the frames of R145 and R146, the table word of SLEEP with an empty payload, the selectors of R73. -/
def Obligations.WrittenOutWordsDecode : Prop :=
  decode [0xFF#8, 0x00#8, 0x01#8, 0x81#8, 0x82#8] = .ok (.getFirmware [], []) ∧
  decode [0xFF#8, 0x00#8, 0x02#8, 0x86#8, 0x04#8, 0x8C#8] = .ok (.readBlock [0x04#8], []) ∧
  decode [0xFF#8, 0x00#8, 0x09#8, 0x85#8, 0x04#8, 0xAA#8, 0xFF#8, 0xFF#8, 0xFF#8, 0xFF#8, 0xFF#8, 0xFF#8, 0x36#8] =
    .ok (.authenticate [0x04#8, 0xAA#8, 0xFF#8, 0xFF#8, 0xFF#8, 0xFF#8, 0xFF#8, 0xFF#8], []) ∧
  decodeTableWord 32 0xFF000196 = some (.sleep []) ∧
  decodeTableWord 8 0b10 = some (.recv 0) ∧ decodeTableWord 8 0b11 = some .cancel ∧ decodeTableWord 8 0b00 = none

/-! ### SEND and the command frames -/

/-- R91, R92, R94: an accepted SEND records its command first; a payload over 254 bytes then ends `OversizedPayload` with
nothing written; any other starts the frame. Nothing else changes. (Left open here: `reports`, log 13; what `tx_buf` holds,
log 10; the bit `rxReady`, and after the error `rx_buf`, log 11.) -/
def Obligations.SendRecordsThenChecksThenStarts : Prop :=
  ∀ (s : State) (cmd : Byte) (p : List Byte), s.seq = .idle → ∃ t, exec (.send cmd p) s = .next t ∧
    (254 < p.length →
      t = { s with
        lastCmd := cmd, lastValid := true, resCode := .oversizedPayload, rxBuf := t.rxBuf, rxReady := t.rxReady,
        reports := t.reports }) ∧
    (p.length ≤ 254 →
      t = { s with
        lastCmd := cmd, lastValid := true, txCmd := cmd, txLen := BitVec.ofNat 8 (p.length + 1),
        txAcc := BitVec.ofNat 8 (p.length + 1 + cmd.toNat), txIdx := 0x00#8, seq := .txHdr, txBuf := t.txBuf,
        rxReady := t.rxReady })

/-- R93: a SEND that is not oversized, run to its end, appends exactly `encode(cmd, payload)`, `|payload| + 5` bytes, to
`TXS`, ends `Sent` and starts the settle interval; no cell of `rx_buf` holds a value then (R25); nothing else but the transmit
registers, the record and the result changes. (The model's own: the bit `rxReady`, log 11. Left open: `reports`, log 13, and
what `tx_buf` holds, log 10.) -/
def Obligations.SendAppendsEncodedFrame : Prop :=
  ∀ (s : State) (cmd : Byte) (p : List Byte), s.seq = .idle → p.length ≤ 254 →
    ∃ t u, exec (.send cmd p) s = .next t ∧ codecMoves (p.length + 5) t = .next u ∧
      u = { s with
        lastCmd := cmd, lastValid := true, settlePending := true, txCmd := cmd, txLen := BitVec.ofNat 8 (p.length + 1),
        txIdx := BitVec.ofNat 8 p.length,
        txAcc := BitVec.ofNat 8 (p.length + 1 + cmd.toNat + (p.map BitVec.toNat).sum), resCode := .sent,
        txs := s.txs ++ ([0xFF#8, 0x00#8, BitVec.ofNat 8 (p.length + 1), cmd] ++ p ++
          [BitVec.ofNat 8 (p.length + 1 + cmd.toNat + (p.map BitVec.toNat).sum)]),
        rxBuf := [], rxReady := false, txBuf := u.txBuf, reports := u.reports } ∧
      u.txs.length = s.txs.length + (p.length + 5)

/-- R140 with the codes of R69: each of the 19 commands, presented in `IDLE` with a payload that fits, records its code and
starts its frame; run to its end it has written its frame, and no cell of `rx_buf` holds a value (R25). (The model's own:
`tx_buf`, log 10; that the start leaves `rx_buf` and `rxReady`, log 11.) -/
def Obligations.CommandFramesWriteTheirFrames : Prop :=
  ∀ (s : State) (p : List Byte), s.seq = .idle → p.length ≤ 254 →
    ∀ ic ∈ [(Instr.reset p, 0x80#8), (.getFirmware p, 0x81#8), (.seekTag p, 0x82#8), (.selectTag p, 0x83#8),
        (.authenticate p, 0x85#8), (.readBlock p, 0x86#8), (.readValue p, 0x87#8), (.writeBlock p, 0x89#8),
        (.writeValue p, 0x8A#8), (.writeUltralight p, 0x8B#8), (.writeKey p, 0x8C#8), (.increment p, 0x8D#8),
        (.decrement p, 0x8E#8), (.antenna p, 0x90#8), (.readPort p, 0x91#8), (.writePort p, 0x92#8), (.halt p, 0x93#8),
        (.setBaudRate p, 0x94#8), (.sleep p, 0x96#8)],
      exec ic.1 s = .next { s with
        lastCmd := ic.2, lastValid := true, txCmd := ic.2, txLen := BitVec.ofNat 8 (p.length + 1),
        txAcc := BitVec.ofNat 8 (p.length + 1 + ic.2.toNat), txIdx := 0x00#8, txBuf := p, seq := .txHdr } ∧
      ∃ t u, exec ic.1 s = .next t ∧ codecMoves (p.length + 5) t = .next u ∧ u.seq = .idle ∧ u.resCode = .sent ∧
        u.lastCmd = ic.2 ∧ u.settlePending = true ∧ u.rxBuf = [] ∧
        u.txs = s.txs ++ ([0xFF#8, 0x00#8, BitVec.ofNat 8 (p.length + 1), ic.2] ++ p ++
          [BitVec.ofNat 8 (p.length + 1 + ic.2.toNat + (p.map BitVec.toNat).sum)])

/-- R140, R205: a command frame with an oversized payload ends `OversizedPayload` with nothing written and its code recorded.
(The model's own: `rx_buf` emptied and `rxReady`, log 11; `reports`, log 13.) -/
def Obligations.OversizedCommandFramesWriteNothing : Prop :=
  ∀ (s : State) (p : List Byte), s.seq = .idle → 254 < p.length →
    ∀ ic ∈ [(Instr.reset p, 0x80#8), (.getFirmware p, 0x81#8), (.seekTag p, 0x82#8), (.selectTag p, 0x83#8),
        (.authenticate p, 0x85#8), (.readBlock p, 0x86#8), (.readValue p, 0x87#8), (.writeBlock p, 0x89#8),
        (.writeValue p, 0x8A#8), (.writeUltralight p, 0x8B#8), (.writeKey p, 0x8C#8), (.increment p, 0x8D#8),
        (.decrement p, 0x8E#8), (.antenna p, 0x90#8), (.readPort p, 0x91#8), (.writePort p, 0x92#8), (.halt p, 0x93#8),
        (.setBaudRate p, 0x94#8), (.sleep p, 0x96#8)],
      exec ic.1 s = .next { s with
        lastCmd := ic.2, lastValid := true, resCode := .oversizedPayload, rxBuf := [], rxReady := false,
        reports := s.reports ++ [.error .oversizedPayload] }

/-- R90: every instruction but CANCEL presented while the block is busy has no effect (for the decoders: R8, log 8). -/
def Obligations.BusyBlockHoldsOffRequests : Prop :=
  ∀ (s : State) (i : Instr), s.seq ≠ .idle → i ≠ .cancel → exec i s = .next s

/-- R95, R96, R97, R98: the header, the reserved byte, the length byte and the command byte, one a move; an empty payload goes
straight from the command byte to the checksum. -/
def Obligations.HeaderToCommandBytesWritten : Prop :=
  (∀ s : State, s.seq = .txHdr → codecStep s = .next { s with txs := s.txs ++ [0xFF#8], seq := .txRsvd }) ∧
  (∀ s : State, s.seq = .txRsvd → codecStep s = .next { s with txs := s.txs ++ [0x00#8], seq := .txLen }) ∧
  (∀ s : State, s.seq = .txLen → codecStep s = .next { s with txs := s.txs ++ [s.txLen], seq := .txCmd }) ∧
  (∀ s : State, s.seq = .txCmd → 1 < s.txLen.toNat →
    codecStep s = .next { s with txs := s.txs ++ [s.txCmd], seq := .txPay }) ∧
  (∀ s : State, s.seq = .txCmd → s.txLen.toNat ≤ 1 →
    codecStep s = .next { s with txs := s.txs ++ [s.txCmd], seq := .txCsum })

/-- R99: a payload byte is written unchanged, whatever it is, and added into the accumulator. -/
def Obligations.PayloadByteWrittenAndSummed : Prop :=
  ∀ (s : State) (b : Byte), s.seq = .txPay → s.txBuf[s.txIdx.toNat]? = some b →
    (s.txIdx.toNat + 1 ≠ s.txLen.toNat - 1 →
      codecStep s = .next { s with txAcc := s.txAcc + b, txs := s.txs ++ [b], txIdx := s.txIdx + 1#8 }) ∧
    (s.txIdx.toNat + 1 = s.txLen.toNat - 1 →
      codecStep s = .next { s with txAcc := s.txAcc + b, txs := s.txs ++ [b], txIdx := s.txIdx + 1#8, seq := .txCsum })

/-- R100, R25: the accumulator is written, the settle interval starts, the SEND ends `Sent`, an outcome other than `Ok`: no cell
of `rx_buf` holds a value after it. (The model's own: `tx_buf` is given back, log 10; `rxReady`, log 11; `reports`, log 13.) -/
def Obligations.ChecksumByteEndsSend : Prop :=
  ∀ s : State, s.seq = .txCsum →
    codecStep s = .next { s with
      txs := s.txs ++ [s.txAcc], settlePending := true, resCode := .sent, seq := .idle, txBuf := [],
      rxBuf := [], rxReady := false, reports := s.reports ++ [.sent] }

/-- R100: no move of a SEND reads `RXS`: with other bytes waiting there it does the same to everything else. -/
def Obligations.SendMovesIgnoreReceiveStream : Prop :=
  ∀ (s t : State) (r : List Byte), s.seq.isTransmit = true → codecStep s = .next t →
    t.rxs = s.rxs ∧ codecStep { s with rxs := r } = .next { t with rxs := r }

/-- R36, R66: the checksum is the sum mod 256, and each byte appended adds to it mod 256; so in every state that meets the
invariant `tx_acc` is, all through a SEND, the checksum of the payload bytes written so far, and `rx_acc` is, in the payload
and checksum states of a RECV whose echo matched, the checksum of the payload bytes read so far, which are those stored (R17,
R23). -/
def Obligations.AccumulatorIsChecksumOfPrefix : Prop :=
  (∀ (len cmd b : Byte) (p : List Byte),
    (checksum len cmd p).toNat = (len.toNat + cmd.toNat + (p.map BitVec.toNat).sum) % 256 ∧
    checksum len cmd (p ++ [b]) = checksum len cmd p + b) ∧
  (∀ s : State, s.Inv → s.seq.isTransmit = true →
    s.txAcc.toNat =
      (s.txBuf.length + 1 + s.txCmd.toNat + ((s.txBuf.take s.txIdx.toNat).map BitVec.toNat).sum) % 256) ∧
  (∀ s : State, s.Inv → s.seq = .rxPay ∨ s.seq = .rxCsum → s.rxCmd = s.lastCmd →
    s.rxBuf.map Prod.fst = List.range s.rxIdx.toNat ∧
    s.rxAcc.toNat = (s.rxLen.toNat + s.rxCmd.toNat + (s.rxBuf.map fun c => c.2.toNat).sum) % 256)

/-! ### RECV, the settle timer and CANCEL -/

/-- R101: a RECV before any SEND ends `NoCommand` and reads nothing. (The model's own: `rx_buf` emptied and `rxReady`,
log 11; `reports`, log 13.) -/
def Obligations.RecvWithoutCommandEndsNoCommand : Prop :=
  ∀ (s : State) (cap : Nat), s.seq = .idle → s.lastValid = false →
    exec (.recv cap) s = .next { s with
      resCode := .noCommand, rxBuf := [], rxReady := false, reports := s.reports ++ [.error .noCommand] }

/-- R102: with a command outstanding a RECV latches the capacity, every cell of `rx_buf` becomes unwritten, and the block waits
out the settle interval or hunts. Nothing else changes. (The model's own bit `rxReady` is left open here: log 11.) -/
def Obligations.RecvStartsReception : Prop :=
  ∀ (s : State) (cap : Nat), s.seq = .idle → s.lastValid = true → ∃ t, exec (.recv cap) s = .next t ∧
    (∀ a, Memory.read t.rxBuf a = none) ∧
    (s.settlePending = true → t = { s with rxCap := cap, rxBuf := [], seq := .rxSettle, rxReady := t.rxReady }) ∧
    (s.settlePending = false → t = { s with rxCap := cap, rxBuf := [], seq := .rxHunt, rxReady := t.rxReady })

/-- R103, R104: in `RX_SETTLE` the block reads nothing and waits until `settle_pending` is 0; `SETTLE_ELAPSED`, a turn of the
timer, clears that bit and does nothing else, in every state of the sequencer. (The model's own: the wait is a step that changes
nothing, log 24; the turn leaves the schedule, log 2.) -/
def Obligations.SettleWaitEndedByTimer : Prop :=
  (∀ s : State, s.seq = .rxSettle →
    (s.settlePending = true → codecStep s = .next s) ∧
    (s.settlePending = false → codecStep s = .next { s with seq := .rxHunt })) ∧
  (∀ (s : State) (rest : List Agent), s.schedule = .timer :: rest →
    step s = .next { s with settlePending := false, schedule := rest })

/-- R106: the hunt discards bytes until a header. -/
def Obligations.HuntDiscardsUntilHeader : Prop :=
  ∀ (s : State) (b : Byte) (rest : List Byte), s.seq = .rxHunt → s.rxs = b :: rest →
    (b = 0xFF#8 → codecStep s = .next { s with rxs := rest, seq := .rxRsvd }) ∧
    (b ≠ 0xFF#8 → codecStep s = .next { s with rxs := rest })

/-- R107: the byte after the header must be `00`; anything else, `FF` included, is consumed and is a framing error. (The model's
own: `rx_buf` emptied and `rxReady`, log 11; `reports`, log 13.) -/
def Obligations.ReservedByteMustBeZero : Prop :=
  ∀ (s : State) (b : Byte) (rest : List Byte), s.seq = .rxRsvd → s.rxs = b :: rest →
    (b = 0x00#8 → codecStep s = .next { s with rxs := rest, seq := .rxLen }) ∧
    (b ≠ 0x00#8 → codecStep s = .next { s with
      rxs := rest, seq := .idle, resCode := .framingError, rxBuf := [], rxReady := false,
      reports := s.reports ++ [.error .framingError] })

/-- R108: the length byte; 0 is a framing error, a payload over the capacity a capacity error. (The model's own: `rx_buf`
emptied and `rxReady`, log 11; `reports`, log 13.) -/
def Obligations.LengthByteCheckedAgainstCapacity : Prop :=
  ∀ (s : State) (b : Byte) (rest : List Byte), s.seq = .rxLen → s.rxs = b :: rest →
    (b = 0x00#8 → codecStep s = .next { s with
      rxs := rest, rxLen := b, seq := .idle, resCode := .framingError, rxBuf := [], rxReady := false,
      reports := s.reports ++ [.error .framingError] }) ∧
    (b ≠ 0x00#8 → s.rxCap < b.toNat - 1 → codecStep s = .next { s with
      rxs := rest, rxLen := b, seq := .idle, resCode := .capacityError, rxBuf := [], rxReady := false,
      reports := s.reports ++ [.error .capacityError] }) ∧
    (b ≠ 0x00#8 → b.toNat - 1 ≤ s.rxCap → codecStep s = .next { s with rxs := rest, rxLen := b, seq := .rxCmd })

/-- R109: the echo is compared with `last_cmd`; a mismatch is held, and the rest of the frame is read either way. -/
def Obligations.EchoComparedAndHeld : Prop :=
  ∀ (s : State) (b : Byte) (rest : List Byte), s.seq = .rxCmd → s.rxs = b :: rest →
    (1 < s.rxLen.toNat → codecStep s = .next { s with
      rxs := rest, rxCmd := b, rxMismatch := decide (b ≠ s.lastCmd), rxAcc := s.rxLen + b, rxIdx := 0x00#8, seq := .rxPay }) ∧
    (s.rxLen.toNat ≤ 1 → codecStep s = .next { s with
      rxs := rest, rxCmd := b, rxMismatch := decide (b ≠ s.lastCmd), rxAcc := s.rxLen + b, rxIdx := 0x00#8, seq := .rxCsum })

/-- R110: a payload byte is added into the accumulator and, unless the echo mismatched, stored at `rx_buf[rx_idx]`, every other
cell reading as before; on a mismatch no cell changes. `rx_idx < rx_cap` is R56's bound, which every reachable state meets
(`InvariantKeptByEveryStep`). -/
def Obligations.PayloadByteStoredUnlessMismatched : Prop :=
  ∀ (s : State) (b : Byte) (rest : List Byte), s.seq = .rxPay → s.rxs = b :: rest → s.rxIdx.toNat < s.rxCap →
    ∃ buf, codecStep s = .next { s with
        rxs := rest, rxAcc := s.rxAcc + b, rxBuf := buf, rxIdx := s.rxIdx + 1#8,
        seq := if s.rxIdx.toNat + 1 = s.rxLen.toNat - 1 then .rxCsum else .rxPay } ∧
      (s.rxMismatch = false →
        Memory.read buf s.rxIdx.toNat = some b ∧ ∀ a, a ≠ s.rxIdx.toNat → Memory.read buf a = Memory.read s.rxBuf a) ∧
      (s.rxMismatch = true → buf = s.rxBuf)

/-- R111, R112: at the checksum byte a mismatched echo is a correlation error whatever the byte is; then a wrong checksum is a
checksum error; else the RECV ends `Ok`. (The model's own: `rx_buf` emptied and `rxReady`, log 11; `reports`, log 13.) -/
def Obligations.ChecksumByteDecidesOutcome : Prop :=
  ∀ (s : State) (b : Byte) (rest : List Byte), s.seq = .rxCsum → s.rxs = b :: rest →
    (s.rxMismatch = true → codecStep s = .next { s with
      rxs := rest, seq := .idle, resCode := .correlationError, rxBuf := [], rxReady := false,
      reports := s.reports ++ [.error .correlationError] }) ∧
    (s.rxMismatch = false → b ≠ s.rxAcc → codecStep s = .next { s with
      rxs := rest, seq := .idle, resCode := .checksumError, rxBuf := [], rxReady := false,
      reports := s.reports ++ [.error .checksumError] }) ∧
    (s.rxMismatch = false → b = s.rxAcc → codecStep s = .next { s with
      rxs := rest, seq := .idle, resCode := .ok, resCmd := s.rxCmd, resLen := s.rxLen - 1#8, rxReady := true,
      reports := s.reports ++ [.received s.rxCmd (s.rxLen - 1#8) s.rxBuf] })

/-- R238, R45: in every state that reads, an empty `RXS` leaves the block waiting: its move changes nothing. (The wait is a
step that changes nothing: log 24.) -/
def Obligations.EmptyStreamLeavesBlockWaiting : Prop :=
  ∀ s : State, s.seq ∈ [Seq.rxHunt, .rxRsvd, .rxLen, .rxCmd, .rxPay, .rxCsum] → s.rxs = [] → codecStep s = .next s

/-- R113, R90: CANCEL in a receive state ends the RECV `Timeout`, leaving `RXS`, the record and the settle bit as they are; in
`IDLE` and in the transmit states it is ignored. (The model's own: `rx_buf` emptied and `rxReady`, log 11; `reports`,
log 13.) -/
def Obligations.CancelEndsOnlyAReceive : Prop :=
  ∀ s : State,
    (s.seq ∈ [Seq.rxSettle, .rxHunt, .rxRsvd, .rxLen, .rxCmd, .rxPay, .rxCsum] →
      exec .cancel s = .next { s with
        seq := .idle, resCode := .timeout, rxBuf := [], rxReady := false, reports := s.reports ++ [.error .timeout] }) ∧
    (s.seq ∈ [Seq.idle, .txHdr, .txRsvd, .txLen, .txCmd, .txPay, .txCsum] → exec .cancel s = .next s)

/-- R210: with a byte and a CANCEL both ready, either may be taken first: the schedule decides, and the model has both. The
second half holds of every state: a codec turn is the codec's move, in the transmit states too; and with the schedule
exhausted the codec moves while it has a move. (The model's own: the schedule, log 2, and its end, log 3; `rx_buf` emptied,
log 11; `reports`, log 13.) -/
def Obligations.ByteAndCancelInEitherOrder : Prop :=
  (∀ (s : State) (queue : List HostMove) (rest : List Agent),
    s.seq.isReceive = true → s.schedule = .host :: rest → s.hostQueue = .present (encode .cancel) :: queue →
    step s = .next { s with
      schedule := rest, hostQueue := queue, seq := .idle, resCode := .timeout, rxBuf := [], rxReady := false,
      reports := s.reports ++ [.error .timeout] }) ∧
  (∀ (s : State) (rest : List Agent), s.schedule = .codec :: rest → step s = codecStep { s with schedule := rest }) ∧
  (∀ s : State, s.schedule = [] →
    s.seq.isTransmit = true ∨ s.seq.readsByte = true ∧ s.rxs ≠ [] ∨ s.seq = .rxSettle ∧ s.settlePending = false →
    step s = codecStep s)

/-! ### The decoder as a function (R105), and the sequencer against it (R122) -/

/-- R122, the spec's own inference ("[derived: from rules R93 to R100 and R105 to R112]"): from `RX_HUNT` the sequencer ends
with the outcome of `decode` after consuming as many bytes, and waits when `decode` gives `Blocked`. On `Ok` the caller can
read the payload. Nothing but the receive and result registers, `RXS` and the reports changes. (The model's own: the wait, log
24; `rxReady`, log 11; `reports`, log 13.) -/
def Obligations.SequencerAgreesWithDecode : Prop :=
  ∀ s : State, s.seq = .rxHunt → s.rxBuf = [] → s.rxReady = false →
    ∃ (n : Nat) (t : State), codecMoves n s = .next t ∧
      t = { s with
        seq := t.seq, rxLen := t.rxLen, rxCmd := t.rxCmd, rxMismatch := t.rxMismatch, rxAcc := t.rxAcc, rxIdx := t.rxIdx,
        rxBuf := t.rxBuf, rxReady := t.rxReady, resCode := t.resCode, resLen := t.resLen, resCmd := t.resCmd, rxs := t.rxs,
        reports := t.reports } ∧
      t.rxs = s.rxs.drop n ∧
      match decodeFrame s.lastCmd s.rxCap s.rxs with
      | .ok echo p consumed =>
        n = consumed ∧ t.seq = .idle ∧ t.resCode = .ok ∧ t.resCmd = echo ∧ t.resLen = BitVec.ofNat 8 p.length ∧
        t.holdsPayload p ∧ t.reports = s.reports ++ [.received echo (BitVec.ofNat 8 p.length) (cellsOf p)]
      | .error e consumed =>
        n = consumed ∧ t.seq = .idle ∧ t.resCode = e ∧ t.rxBuf = [] ∧ t.rxReady = false ∧ t.resLen = s.resLen ∧
        t.resCmd = s.resCmd ∧ t.reports = s.reports ++ [.error e]
      | .blocked =>
        n = s.rxs.length ∧ t.seq.readsByte = true ∧ codecStep t = .next t ∧ t.resCode = s.resCode ∧ t.reports = s.reports

/-- R50, R122: a byte that arrives while the codec still has bytes to read waits its turn: arrival and codec move commute.
(The spec's own inference: R50 is "[derived: from rule R49]".) -/
def Obligations.ArrivalCommutesWithCodecMove : Prop :=
  ∀ (s t : State) (b : Byte), (s.seq.readsByte = true → s.rxs ≠ []) → codecStep s = .next t →
    codecStep { s with rxs := s.rxs ++ [b] } = .next { t with rxs := t.rxs ++ [b] }

/-- R118: decoding an encoded frame with matching correlation and room for it returns the payload unchanged, consuming the
frame and no more. -/
def Obligations.DecodeEncodeRoundTrip : Prop :=
  ∀ (c : Byte) (p tail : List Byte) (cap : Nat), p.length ≤ 254 → p.length ≤ cap →
    decodeFrame c cap (encodeFrame c p ++ tail) = .ok c p (p.length + 5)

/-- R119: what changing one byte of a frame, the header apart, leads to; and its example of a length corruption that is not
detected. (The spec's own inference: "[derived: from rules R66 and R105]".) -/
def Obligations.SingleByteCorruption : Prop :=
  (decodeFrame 0x81#8 16 ((encodeFrame 0x81#8 [0x82#8]).set 2 0x01#8) = .ok 0x81#8 [] 5) ∧
  ∀ (c : Byte) (p tail : List Byte) (cap : Nat), p.length ≤ 254 → p.length ≤ cap →
    (∀ v, v ≠ 0x00#8 → decodeFrame c cap ((encodeFrame c p).set 1 v ++ tail) = .error .framingError 2) ∧
    (decodeFrame c cap ((encodeFrame c p).set 2 0x00#8 ++ tail) = .error .framingError 3) ∧
    (∀ v : Byte, cap + 1 < v.toNat → decodeFrame c cap ((encodeFrame c p).set 2 v ++ tail) = .error .capacityError 3) ∧
    (∀ v : Byte, v ≠ BitVec.ofNat 8 (p.length + 1) → v ≠ 0x00#8 → v.toNat ≤ cap + 1 →
      decodeFrame c cap ((encodeFrame c p).set 2 v ++ tail) = .blocked ∨
      (∃ n, decodeFrame c cap ((encodeFrame c p).set 2 v ++ tail) = .error .checksumError n) ∨
      (∃ q n, q ≠ p ∧ decodeFrame c cap ((encodeFrame c p).set 2 v ++ tail) = .ok c q n)) ∧
    (∀ v, v ≠ c → decodeFrame c cap ((encodeFrame c p).set 3 v ++ tail) = .error .correlationError (p.length + 5)) ∧
    (∀ (k : Nat) (b v : Byte), p[k]? = some b → v ≠ b →
      decodeFrame c cap ((encodeFrame c p).set (4 + k) v ++ tail) = .error .checksumError (p.length + 5)) ∧
    (∀ v, v ≠ checksum (BitVec.ofNat 8 (p.length + 1)) c p →
      decodeFrame c cap ((encodeFrame c p).set (4 + p.length) v ++ tail) = .error .checksumError (p.length + 5))

/-- R120: garbage that holds no `FF` does not prevent the decode; garbage with an `FF` not followed by `00` ends in a framing
error; with an `FF 00` the decode is that of a frame starting there. (The spec's own inference: "[derived: from rules R105,
R106, R107]".) -/
def Obligations.ResyncOverGarbage : Prop :=
  ∀ (g : List Byte), 0xFF#8 ∉ g →
    (∀ (c : Byte) (p tail : List Byte) (cap : Nat), p.length ≤ 254 → p.length ≤ cap →
      decodeFrame c cap (g ++ encodeFrame c p ++ tail) = .ok c p (g.length + p.length + 5)) ∧
    (∀ (c b : Byte) (rest : List Byte) (cap : Nat), b ≠ 0x00#8 →
      decodeFrame c cap (g ++ 0xFF#8 :: b :: rest) = .error .framingError (g.length + 2)) ∧
    (∀ (c : Byte) (rest : List Byte) (cap : Nat),
      decodeFrame c cap (g ++ 0xFF#8 :: 0x00#8 :: rest) =
        match decodeFrame c cap (0xFF#8 :: 0x00#8 :: rest) with
        | .blocked => .blocked
        | .ok echo q n => .ok echo q (g.length + n)
        | .error e n => .error e (g.length + n))

/-- R121: once the echo is read and differs from the last command, the result is a correlation error or the wait for the rest
of the frame; no `Ok` ever carries another command's echo; a frame that fails an earlier check reports that error whatever its
echo is, which is among the bytes `rest` not read. -/
def Obligations.WrongEchoNeverAccepted : Prop :=
  (∀ (c len ce : Byte) (g rest : List Byte) (cap : Nat),
    0xFF#8 ∉ g → len ≠ 0x00#8 → len.toNat - 1 ≤ cap → ce ≠ c →
    decodeFrame c cap (g ++ 0xFF#8 :: 0x00#8 :: len :: ce :: rest) =
      if rest.length < len.toNat then .blocked else .error .correlationError (g.length + len.toNat + 4)) ∧
  (∀ (c ce : Byte) (bytes p : List Byte) (cap n : Nat), decodeFrame c cap bytes = .ok ce p n → ce = c) ∧
  (∀ (c : Byte) (g rest : List Byte) (cap : Nat), 0xFF#8 ∉ g →
    (∀ b, b ≠ 0x00#8 → decodeFrame c cap (g ++ 0xFF#8 :: b :: rest) = .error .framingError (g.length + 2)) ∧
    decodeFrame c cap (g ++ 0xFF#8 :: 0x00#8 :: 0x00#8 :: rest) = .error .framingError (g.length + 3) ∧
    (∀ len : Byte, cap + 1 < len.toNat →
      decodeFrame c cap (g ++ 0xFF#8 :: 0x00#8 :: len :: rest) = .error .capacityError (g.length + 3)))

/-- R114: the bytes each outcome consumes, with `g` the bytes skipped before the first `FF`; and R105's blocked case has used
every byte. (The spec's own inference: "[derived: from rule R105]".) -/
def Obligations.BytesConsumedByOutcome : Prop :=
  ∀ (c : Byte) (cap : Nat) (bytes : List Byte) (g len : Nat),
    g = (bytes.takeWhile fun b => decide (b ≠ 0xFF#8)).length → len = (bytes.getD (g + 2) 0x00#8).toNat →
    match decodeFrame c cap bytes with
    | .ok _ p n => n = g + len + 4 ∧ n ≤ bytes.length ∧ p.length = len - 1 ∧ p.length ≤ cap
    | .error .framingError n =>
      n ≤ bytes.length ∧ ((n = g + 2 ∧ bytes.getD (g + 1) 0x00#8 ≠ 0x00#8) ∨ (n = g + 3 ∧ len = 0))
    | .error .capacityError n => n ≤ bytes.length ∧ n = g + 3 ∧ cap + 1 < len
    | .error .correlationError n => n ≤ bytes.length ∧ n = g + len + 4 ∧ bytes.getD (g + 3) 0x00#8 ≠ c
    | .error .checksumError n => n ≤ bytes.length ∧ n = g + len + 4 ∧ bytes.getD (g + 3) 0x00#8 = c
    | .error _ _ => False
    | .blocked => bytes.length < g + 3 ∨ bytes.length < g + len + 4

/-! ### Errors, reset, the streams and the record -/

/-- R211: an error ends the operation and nothing more: the code, `IDLE`, at most the one byte just read gone from `RXS`,
nothing usable in `rx_buf`; the settle bit and `TXS` keep their values, and so does the record, but that a SEND had written it
before it failed (R91). This is every error: one found by a codec move, and one raised by any instruction. (The model's own:
`rx_buf` emptied and `rxReady`, log 11; `reports`, log 13.) -/
def Obligations.ErrorInReceptionKeepsSession : Prop :=
  ∀ (s t : State) (e : ResCode), t.reports = s.reports ++ [.error e] →
    (codecStep s = .next t →
      t.resCode = e ∧ t.seq = .idle ∧ t.rxBuf = [] ∧ t.rxReady = false ∧ t.lastCmd = s.lastCmd ∧ t.lastValid = s.lastValid ∧
      t.settlePending = s.settlePending ∧ t.txs = s.txs ∧ t.rxs = s.rxs.tail) ∧
    (∀ i, exec i s = .next t →
      t.resCode = e ∧ t.seq = .idle ∧ t.rxBuf = [] ∧ t.rxReady = false ∧ t.settlePending = s.settlePending ∧
      t.txs = s.txs ∧ t.rxs = s.rxs ∧ (sentCommand i = none → t.lastCmd = s.lastCmd ∧ t.lastValid = s.lastValid))

/-- R230, 10_state.md section 7: what the spec says of the state after reset. (Every other field holds a value the model chose:
log 1, 7, 20.) -/
def Obligations.ResetLeavesIdleUnwritten : Prop :=
  State.reset.seq = .idle ∧ State.reset.lastValid = false ∧ State.reset.settlePending = false ∧
  (∀ a, Memory.read State.reset.rxBuf a = none) ∧ State.reset.txs = []

/-- R230, R233: a reset of the block at any time abandons the operation: `IDLE`, no command outstanding, no settle interval, no
payload; bytes written stay written, bytes not read stay in `RXS`, and no result is reported. (What the agents around the
block keep: log 19.) -/
def Obligations.BlockResetAbandonsOperation : Prop :=
  ∀ (s : State) (queue : List HostMove) (rest : List Agent), s.schedule = .host :: rest → s.hostQueue = .reset :: queue →
    ∃ t, step s = .next t ∧ t.seq = .idle ∧ t.lastValid = false ∧ t.settlePending = false ∧
      (∀ a, Memory.read t.rxBuf a = none) ∧ t.rxReady = false ∧ t.txs = s.txs ∧ t.rxs = s.rxs ∧ t.reports = s.reports ∧
      t.lineIn = s.lineIn ∧ t.hostQueue = queue ∧ t.schedule = rest

/-- R33: the block only appends to `TXS`, one byte a move, and only while it transmits. -/
def Obligations.TransmitStreamOnlyGrows : Prop :=
  ∀ s t : State, step s = .next t →
    t.txs = s.txs ∨ (s.nextAgent = .codec ∧ s.seq.isTransmit = true ∧ ∃ b, t.txs = s.txs ++ [b])

/-- R34, R45, R49: `RXS` is first in first out: a step leaves it, takes its oldest byte by a codec move that reads, or appends
one byte the module sent; and a transport turn does append the next byte the module sent, whatever the block is doing. (The
bytes to come and the schedule: log 18, 2.) -/
def Obligations.ReceiveStreamIsFifo : Prop :=
  (∀ s t : State, step s = .next t →
    (t.rxs = s.rxs ∧ t.lineIn = s.lineIn) ∨
    (s.nextAgent = .codec ∧ s.seq.readsByte = true ∧ t.lineIn = s.lineIn ∧ ∃ b, s.rxs = b :: t.rxs) ∨
    (s.nextAgent = .transport ∧ ∃ b, s.lineIn = b :: t.lineIn ∧ t.rxs = s.rxs ++ [b])) ∧
  (∀ (s : State) (b : Byte) (line : List Byte) (rest : List Agent), s.schedule = .transport :: rest → s.lineIn = b :: line →
    step s = .next { s with rxs := s.rxs ++ [b], lineIn := line, schedule := rest })

/-- R10, R11: the correlator's record is written by a SEND (or a command frame, which is one) and by nothing else but the
block's reset: `last_cmd` becomes the command sent, and `last_valid` goes from 1 to 0 by the reset only. -/
def Obligations.RecordWrittenBySendOnly : Prop :=
  ∀ s t : State, step s = .next t →
    (t.lastCmd ≠ s.lastCmd →
      s.nextAgent = .host ∧ ∃ move queue, s.hostQueue = move :: queue ∧
        (move = .reset ∨ ∃ image i rest p, (move = .present image ∨ move = .presentIfOk image) ∧
          decode image = .ok (i, rest) ∧ sentCommand i = some (t.lastCmd, p))) ∧
    (s.lastValid = true → t.lastValid = false → s.nextAgent = .host ∧ ∃ queue, s.hostQueue = .reset :: queue)

/-- R51, R234: in every state that meets the invariant, a step that takes a byte from `RXS` happens with the settle interval
over. -/
def Obligations.NoByteReadDuringSettle : Prop :=
  ∀ (s t : State) (b : Byte), s.Inv → step s = .next t → s.rxs = b :: t.rxs → s.settlePending = false

/-! ### The response decoders and the status mapping -/

/-- R172: DEC_TAG. (The value goes to the model's `reports`, with its meaning: log 13.) -/
def Obligations.DecTagResult : Prop :=
  ∀ (s : State) (p : List Byte), s.seq = .idle → s.holdsPayload p →
    (p = [] → exec .decTag s = .next { s with reports := s.reports ++ [.decoded .noResponse none] }) ∧
    (∀ code, p = [code] →
      exec .decTag s = .next { s with reports := s.reports ++ [.decoded (.status code) (statusMeaning s.lastCmd code)] }) ∧
    (∀ kind b serial, p = kind :: b :: serial →
      exec .decTag s = .next { s with reports := s.reports ++ [.decoded (.tag kind (b :: serial)) none] })

/-- R174: DEC_FW_STRING returns the payload verbatim, whatever its length. (`reports`: log 13.) -/
def Obligations.DecFwStringResult : Prop :=
  ∀ (s : State) (p : List Byte), s.seq = .idle → s.holdsPayload p →
    exec .decFwString s = .next { s with reports := s.reports ++ [.decoded (.fwString p) none] }

/-- R175: DEC_FW_U32, for the device's offsets `FW_IDX`, whatever they are (log 14). (`reports`: log 13.) -/
def Obligations.DecFwU32Result : Prop :=
  ∀ (s : State) (p : List Byte), s.seq = .idle → s.holdsPayload p →
    exec .decFwU32 s = .next { s with reports := s.reports ++ [.decoded
      (if p.length ≤ max (max Config.fwIdx.i0 Config.fwIdx.i1) (max Config.fwIdx.i2 Config.fwIdx.i3) then .unexpectedResponse
       else .fwU32 (BitVec.ofNat 32
        ((p.getD Config.fwIdx.i0 0).toNat * 2 ^ 24 + (p.getD Config.fwIdx.i1 0).toNat * 2 ^ 16 +
          (p.getD Config.fwIdx.i2 0).toNat * 2 ^ 8 + (p.getD Config.fwIdx.i3 0).toNat))) none] }

/-- R176: DEC_AUTH. (`reports`: log 13.) -/
def Obligations.DecAuthResult : Prop :=
  ∀ (s : State) (p : List Byte), s.seq = .idle → s.holdsPayload p →
    (∀ code, p = [code] →
      exec .decAuth s = .next { s with reports := s.reports ++ [.decoded (.status code) (statusMeaning s.lastCmd code)] }) ∧
    (p.length ≠ 1 → exec .decAuth s = .next { s with reports := s.reports ++ [.decoded .unexpectedResponse none] })

/-- R177: DEC_READ_BLOCK. (`reports`: log 13.) -/
def Obligations.DecReadBlockResult : Prop :=
  ∀ (s : State) (p : List Byte), s.seq = .idle → s.holdsPayload p →
    (∀ code, p = [code] →
      exec .decReadBlock s = .next { s with
        reports := s.reports ++ [.decoded (.status code) (statusMeaning s.lastCmd code)] }) ∧
    (∀ number data, p = number :: data → data.length = 16 →
      exec .decReadBlock s = .next { s with reports := s.reports ++ [.decoded (.block number data) none] }) ∧
    (p.length ≠ 1 → p.length ≠ 17 →
      exec .decReadBlock s = .next { s with reports := s.reports ++ [.decoded .unexpectedResponse none] })

/-- R178: DEC_READ_VALUE, for the device's offset `VALUE_OFFSET`, whatever it is; the value is the two's complement reading of
the four bytes, least significant first. (`VALUE_OFFSET`: log 14; `reports`: log 13.) -/
def Obligations.DecReadValueResult : Prop :=
  ∀ (s : State) (p : List Byte), s.seq = .idle → s.holdsPayload p →
    (∀ code, p = [code] →
      exec .decReadValue s = .next { s with
        reports := s.reports ++ [.decoded (.status code) (statusMeaning s.lastCmd code)] }) ∧
    (p.length ≠ 1 →
      exec .decReadValue s = .next { s with reports := s.reports ++ [.decoded
        (if p.length = Config.valueOffset + 4 then .value (BitVec.toInt (BitVec.ofNat 32
          ((p.getD Config.valueOffset 0).toNat + (p.getD (Config.valueOffset + 1) 0).toNat * 2 ^ 8 +
            (p.getD (Config.valueOffset + 2) 0).toNat * 2 ^ 16 + (p.getD (Config.valueOffset + 3) 0).toNat * 2 ^ 24)))
         else .unexpectedResponse) none] })

/-- R178: `VALUE32(v) = s32(v[0] + v[1]*2^8 + v[2]*2^16 + v[3]*2^24)`. -/
def Obligations.ValueReassembledLeastSignificantFirst : Prop :=
  ∀ (v0 v1 v2 v3 : Byte) (u : Nat), u = v0.toNat + v1.toNat * 2 ^ 8 + v2.toNat * 2 ^ 16 + v3.toNat * 2 ^ 24 →
    (u < 2 ^ 31 → value32 [v0, v1, v2, v3] = (u : Int)) ∧ (2 ^ 31 ≤ u → value32 [v0, v1, v2, v3] = (u : Int) - 2 ^ 32)

/-- R182: a payload of one byte is a status to every decoder that names a status shape, whatever the byte and the offset. -/
def Obligations.SingleByteIsAlwaysStatus : Prop :=
  ∀ (code : Byte) (offset : Nat),
    tagValue [code] = .status code ∧ authValue [code] = .status code ∧ readBlockValue [code] = .status code ∧
    readValueValue offset [code] = .status code

/-- R170, R25, R27: a decoder applied when no RECV has ended `Ok` since the last other outcome, or when `res_code` names another
outcome, `Sent` among them, finds no payload: the model stops with a fault (U7's treatment; log 12; the bit `rxReady`, log
11). -/
def Obligations.DecoderWithoutPayloadFaults : Prop :=
  ∀ (s : State), s.seq = .idle → s.rxReady = false ∨ s.resCode ≠ .ok →
    ∀ i ∈ [Instr.decTag, .decFwString, .decFwU32, .decAuth, .decReadBlock, .decReadValue], exec i s = .fault .noPayload

/-- R179, R180, R181: the meaning of a status byte, the overloaded ones by the outstanding command; every other byte has none.
(The commands of R180 and R181 are the spec's own inference, "[derived: from the names ...]"; log 21.) -/
def Obligations.StatusMeaningByOutstandingCommand : Prop :=
  ∀ last code : Byte,
    statusMeaning last code =
      if code = 0x00#8 then some .success
      else if code = 0x01#8 then some .invalidResponse
      else if code = 0x45#8 then some .invalidKey
      else if code = 0x4E#8 then some .noTag
      else if code = 0x4C#8 ∧ last = 0x85#8 then some .loginSuccessful
      else if code = 0x4C#8 ∧ last = 0x93#8 then some .halted
      else if code = 0x55#8 ∧ last = 0x85#8 then some .loginFailed
      else none

/-- R78, R76, R173: what each pseudo-operation expands to. An exchange is a SEND, then a RECV and the decoder, each only after
a success of the one before; the named exchanges are that, with the request payloads of R145 to R147; a tag read is followed
by `SEND RESET` when the policy is on and by nothing when it is off. (The model's own: moves that wait for a success, and that
the RESET follows whatever the read's outcome, log 22; payloads and capacities cut to what an image holds, log 4; the policy,
log 14.) -/
def Obligations.TagReadFollowedByResetByPolicy : Prop :=
  (∀ (cmd : Byte) (p : List Byte) (cap : Nat) (decoder : Instr),
    xchg cmd p cap decoder =
      [.present (encode (.send cmd (p.take 511))), .presentIfOk (encode (.recv (min cap 255))),
        .presentIfOk (encode decoder)]) ∧
  (∀ (policy : Bool) (cap : Nat),
    (Exchange.getFirmwareString cap).movesWith policy = xchg 0x81#8 [] cap .decFwString ∧
    (Exchange.getFirmwareU32 cap).movesWith policy = xchg 0x81#8 [] cap .decFwU32 ∧
    (∀ block : Byte,
      (Exchange.readBlk block cap).movesWith policy = xchg 0x86#8 [block] cap .decReadBlock ∧
      (Exchange.readVal block cap).movesWith policy = xchg 0x87#8 [block] cap .decReadValue) ∧
    (∀ block keyType k0 k1 k2 k3 k4 k5 : Byte,
      (Exchange.auth block keyType #v[k0, k1, k2, k3, k4, k5] cap).movesWith policy =
        xchg 0x85#8 [block, keyType, k0, k1, k2, k3, k4, k5] cap .decAuth)) ∧
  (∀ (p r : List Byte) (cap : Nat),
    (Exchange.readTagBySeek p r cap).movesWith true =
      xchg 0x82#8 p cap .decTag ++ [.present (encode (.send 0x80#8 (r.take 511)))] ∧
    (Exchange.readTagBySelect p r cap).movesWith true =
      xchg 0x83#8 p cap .decTag ++ [.present (encode (.send 0x80#8 (r.take 511)))] ∧
    (Exchange.readTagBySeek p r cap).movesWith false = xchg 0x82#8 p cap .decTag ∧
    (Exchange.readTagBySelect p r cap).movesWith false = xchg 0x83#8 p cap .decTag) ∧
  (∀ e : Exchange, e.moves = e.movesWith Config.postReadReset)

/-! ### The step and its invariant -/

/-- A host turn runs the instruction the presented image decodes to. What the step adds: the turn leaves the schedule, and the
request leaves the host's queue if it is taken (CANCEL always, the others in `IDLE`: log 8). An image that is no instruction:
`op = 00` of R73 asks for nothing and is dropped with no other effect; any other is refused `badRequest`, by its decode error
(log 9). A turn with nothing presented does nothing (log 2). -/
def Obligations.StepRunsPresentedInstruction : Prop :=
  (∀ (s : State) (image : List Byte) (queue : List HostMove), s.nextAgent = .host → s.hostQueue = .present image :: queue →
    (∀ (i : Instr) (rest : List Byte), decode image = .ok (i, rest) →
      (i = .cancel ∨ s.seq = .idle → step s = exec i { s with schedule := s.schedule.tail, hostQueue := queue }) ∧
      (i ≠ .cancel → s.seq ≠ .idle → step s = .next { s with schedule := s.schedule.tail })) ∧
    (decode image = .error .noOperation → step s = .next { s with schedule := s.schedule.tail, hostQueue := queue }) ∧
    (∀ e, e ≠ .noOperation → decode image = .error e → step s = .refused (.badRequest e))) ∧
  (∀ image : List Byte, decode image = .error .noOperation ↔ ∃ rest, image = 0x00#8 :: rest) ∧
  (∀ s : State, s.nextAgent = .host → s.hostQueue = [] → step s = .next { s with schedule := s.schedule.tail })

/-- A table word stored where the step fetches is what the very next step runs. -/
def Obligations.FetchedTableWordRuns : Prop :=
  ∀ (s : State) (nbits w : Nat) (i : Instr), decodeTableWord nbits w = some i → s.seq = .idle →
    step (s.withFetchWord nbits w) = exec i s

/-- R78: a later step of an exchange waits while the block is busy, is given up when the operation before it failed, and
otherwise runs as a presented request, one whose image is no instruction too. (The model's own: these moves, log 22; `op = 00`
and images refused, log 9.) -/
def Obligations.ExchangeStepOnlyAfterSuccess : Prop :=
  ∀ (s : State) (image : List Byte) (queue : List HostMove), s.nextAgent = .host → s.hostQueue = .presentIfOk image :: queue →
    (s.seq ≠ .idle → step s = .next { s with schedule := s.schedule.tail }) ∧
    (s.seq = .idle → s.resCode ≠ .ok → s.resCode ≠ .sent →
      step s = .next { s with schedule := s.schedule.tail, hostQueue := queue }) ∧
    (s.seq = .idle → s.resCode = .ok ∨ s.resCode = .sent →
      (∀ i rest, decode image = .ok (i, rest) →
        step s = exec i { s with schedule := s.schedule.tail, hostQueue := queue }) ∧
      (decode image = .error .noOperation → step s = .next { s with schedule := s.schedule.tail, hostQueue := queue }) ∧
      (∀ e, e ≠ .noOperation → decode image = .error e → step s = .refused (.badRequest e)))

/-- Every step from a state that meets the invariant ends in one that does: the buffer keeps its canonical form, the transmit
and receive registers hold the frame processed so far, and outside a RECV `rx_buf` holds a whole payload or nothing. -/
def Obligations.InvariantKeptByEveryStep : Prop :=
  ∀ s t : State, s.Inv → step s = .next t → t.Inv

/-- The invariant holds right after reset. -/
def Obligations.ResetMeetsInvariant : Prop := State.reset.Inv

/-- R56, R170: from a state that meets the invariant the only fault a step can end in is a decoder applied without a payload: no
access leaves `tx_buf` or `rx_buf`, and no unwritten cell is read. -/
def Obligations.OnlyFaultIsDecoderWithoutPayload : Prop :=
  ∀ (s : State) (f : Fault), s.Inv → step s = .fault f →
    f = .noPayload ∧ s.rxReady = false ∧ s.nextAgent = .host ∧ s.seq = .idle

/-- R25, R27: in a state that meets the invariant and has a payload, `res_code` is `Ok` and the caller can read the payload,
`res_len` bytes of it; and in one whose `res_code` names any other outcome, outside a RECV, no cell of `rx_buf` holds a value and
there is no payload to read. (The bit `rxReady`: log 11; the fault: log 12.) -/
def Obligations.PayloadReadableWhenReady : Prop :=
  ∀ s : State, s.Inv → s.seq.isReceive = false →
    (s.rxReady = true → s.resCode = .ok ∧ ∃ p, s.holdsPayload p ∧ s.payload = .ok p ∧ p.length = s.resLen.toNat) ∧
    (s.resCode ≠ .ok → (∀ a, Memory.read s.rxBuf a = none) ∧ s.payload = .error .noPayload)

/-- Every step, from any state whatever, keeps the buffer's canonical form. -/
def Obligations.BufferStaysCanonical : Prop :=
  ∀ s t : State, s.rxBuf.wf = true → step s = .next t → t.rxBuf.wf = true

/-- R104, R242: the settle timer is weakly fair: with the schedule exhausted, a RECV that waits out the settle interval hunts
two steps later (the order with the schedule exhausted is the model's: log 3). -/
def Obligations.SettleIntervalEventuallyElapses : Prop :=
  ∀ s : State, s.schedule = [] → s.seq = .rxSettle → s.settlePending = true →
    step s = .next { s with settlePending := false } ∧
    step { s with settlePending := false } = .next { s with settlePending := false, seq := .rxHunt }
end

