-- ==== Sys2Proof/Laws/Decode.lean ====
section
/-! SUPPORT. The laws of the image decoder's one loop. -/

namespace Sys2Proof

/-- Everything `takeExactly` can answer. -/
theorem takeExactly_some {n : Nat} {bytes front rest : List Byte} (h : takeExactly n bytes = some (front, rest)) :
    bytes = front ++ rest ∧ front.length = n := by
  induction n generalizing bytes front with
  | zero => simp_all [takeExactly]
  | succ n ih =>
    cases bytes with
    | nil => simp [takeExactly] at h
    | cons b bytes =>
      simp only [takeExactly] at h
      split at h
      · simp at h
      · rename_i f r e
        simp only [Option.some.injEq, Prod.mk.injEq] at h
        obtain ⟨rfl, rfl⟩ := h
        obtain ⟨rfl, rfl⟩ := ih e
        simp

/-- A front of the right length is taken, whatever follows. -/
@[simp] theorem takeExactly_append (front rest : List Byte) :
    takeExactly front.length (front ++ rest) = some (front, rest) := by
  induction front with
  | nil => rfl
  | cons b front ih => simp [takeExactly, ih]

/-- It answers none exactly where there are too few bytes. -/
theorem takeExactly_none {n : Nat} {bytes : List Byte} : takeExactly n bytes = none ↔ bytes.length < n := by
  induction n generalizing bytes with
  | zero => simp [takeExactly]
  | succ n ih =>
    cases bytes with
    | nil => simp [takeExactly]
    | cons b bytes =>
      rw [List.length_cons, Nat.add_lt_add_iff_right, ← ih]
      simp only [takeExactly]
      split <;> simp_all

end Sys2Proof
end

