-- ==== Sys2Proof/Laws/Frame.lean ====
section
/-! SUPPORT. The laws of the checksum, of the encoder and of the decoder function. -/

namespace Sys2Proof.Machine

@[simp] theorem byteSum_nil : byteSum [] = 0 := rfl

@[simp] theorem byteSum_cons (b : Byte) (p : List Byte) : byteSum (b :: p) = b.toNat + byteSum p := by
  simp [byteSum]

@[simp] theorem byteSum_append (p q : List Byte) : byteSum (p ++ q) = byteSum p + byteSum q := by
  simp [byteSum]

/-- Adding a byte to the payload adds it to the checksum, mod 256 (R36). -/
theorem checksum_snoc (len cmd : Byte) (p : List Byte) (b : Byte) :
    checksum len cmd (p ++ [b]) = checksum len cmd p + b := by
  apply BitVec.eq_of_toNat_eq
  simp [checksum, Nat.add_assoc]

theorem checksum_nil (len cmd : Byte) : checksum len cmd [] = len + cmd := by
  apply BitVec.eq_of_toNat_eq
  simp [checksum]

/-- The length byte of a payload that fits. -/
theorem lengthByte_toNat {n : Nat} (h : n ≤ maxPayload) : (lengthByte n).toNat = n + 1 := by
  unfold maxPayload at h
  simp [lengthByte]; omega

@[simp] theorem encodeFrame_length (cmd : Byte) (p : List Byte) : (encodeFrame cmd p).length = p.length + 5 := by
  simp [encodeFrame]

/-- The hunt counts from where it started. -/
theorem huntHeader_shift (bytes : List Byte) (i : Nat) :
    huntHeader bytes i = (huntHeader bytes 0).map fun r => (r.1 + i, r.2) := by
  induction bytes generalizing i with
  | nil => rfl
  | cons b rest ih =>
    unfold huntHeader
    split
    · simp [Nat.add_comm]
    · rw [ih (i + 1), ih (0 + 1)]
      cases huntHeader rest 0 <;> simp [Nat.add_comm, Nat.add_left_comm]

/-- The hunt skips bytes that are no header. -/
theorem huntHeader_skip (garbage rest : List Byte) (i : Nat) (h : header ∉ garbage) :
    huntHeader (garbage ++ rest) i = huntHeader rest (i + garbage.length) := by
  induction garbage generalizing i with
  | nil => rfl
  | cons b g ih =>
    have hb : b ≠ header := fun e => h (e ▸ List.mem_cons_self)
    have hg : header ∉ g := fun e => h (List.mem_cons_of_mem _ e)
    simp [huntHeader, hb, ih (i + 1) hg, Nat.add_assoc, Nat.add_comm 1]

/-- What the hunt can answer: the bytes before a header that holds none, and what follows it. -/
theorem huntHeader_some {bytes rest : List Byte} {i n : Nat} (h : huntHeader bytes i = some (n, rest)) :
    ∃ garbage, header ∉ garbage ∧ bytes = garbage ++ header :: rest ∧ n = i + garbage.length + 1 := by
  induction bytes generalizing i with
  | nil => simp [huntHeader] at h
  | cons b bytes ih =>
    unfold huntHeader at h
    split at h
    · subst b; exact ⟨[], by simp, by simp_all, by simp_all⟩
    · obtain ⟨g, hg, hb, hn⟩ := ih h
      exact ⟨b :: g, by simp_all [eq_comm], by simp [hb], by simp [hn]; omega⟩

/-- A hunt that answers nothing saw no header. -/
theorem huntHeader_none {bytes : List Byte} {i : Nat} : huntHeader bytes i = none ↔ header ∉ bytes := by
  induction bytes generalizing i with
  | nil => simp [huntHeader]
  | cons b bytes ih =>
    unfold huntHeader
    split
    · subst b; simp
    · rw [ih]; simp_all [eq_comm]

end Sys2Proof.Machine
end

