-- ==== Sys2Proof/Laws/State.lean ====
section
/-! SUPPORT. One lemma per field per named update of State, so that no proof unfolds an update. -/

namespace Sys2Proof.Machine

@[simp] theorem State.goTo_lastCmd (s : State) (q : Seq) : (s.goTo q).lastCmd = s.lastCmd := rfl
@[simp] theorem State.goTo_lastValid (s : State) (q : Seq) : (s.goTo q).lastValid = s.lastValid := rfl
@[simp] theorem State.goTo_seq (s : State) (q : Seq) : (s.goTo q).seq = q := rfl
@[simp] theorem State.goTo_settlePending (s : State) (q : Seq) : (s.goTo q).settlePending = s.settlePending := rfl
@[simp] theorem State.goTo_txCmd (s : State) (q : Seq) : (s.goTo q).txCmd = s.txCmd := rfl
@[simp] theorem State.goTo_txLen (s : State) (q : Seq) : (s.goTo q).txLen = s.txLen := rfl
@[simp] theorem State.goTo_txIdx (s : State) (q : Seq) : (s.goTo q).txIdx = s.txIdx := rfl
@[simp] theorem State.goTo_txAcc (s : State) (q : Seq) : (s.goTo q).txAcc = s.txAcc := rfl
@[simp] theorem State.goTo_txBuf (s : State) (q : Seq) : (s.goTo q).txBuf = s.txBuf := rfl
@[simp] theorem State.goTo_rxCap (s : State) (q : Seq) : (s.goTo q).rxCap = s.rxCap := rfl
@[simp] theorem State.goTo_rxLen (s : State) (q : Seq) : (s.goTo q).rxLen = s.rxLen := rfl
@[simp] theorem State.goTo_rxCmd (s : State) (q : Seq) : (s.goTo q).rxCmd = s.rxCmd := rfl
@[simp] theorem State.goTo_rxMismatch (s : State) (q : Seq) : (s.goTo q).rxMismatch = s.rxMismatch := rfl
@[simp] theorem State.goTo_rxAcc (s : State) (q : Seq) : (s.goTo q).rxAcc = s.rxAcc := rfl
@[simp] theorem State.goTo_rxIdx (s : State) (q : Seq) : (s.goTo q).rxIdx = s.rxIdx := rfl
@[simp] theorem State.goTo_rxBuf (s : State) (q : Seq) : (s.goTo q).rxBuf = s.rxBuf := rfl
@[simp] theorem State.goTo_rxReady (s : State) (q : Seq) : (s.goTo q).rxReady = s.rxReady := rfl
@[simp] theorem State.goTo_resCode (s : State) (q : Seq) : (s.goTo q).resCode = s.resCode := rfl
@[simp] theorem State.goTo_resLen (s : State) (q : Seq) : (s.goTo q).resLen = s.resLen := rfl
@[simp] theorem State.goTo_resCmd (s : State) (q : Seq) : (s.goTo q).resCmd = s.resCmd := rfl
@[simp] theorem State.goTo_txs (s : State) (q : Seq) : (s.goTo q).txs = s.txs := rfl
@[simp] theorem State.goTo_rxs (s : State) (q : Seq) : (s.goTo q).rxs = s.rxs := rfl
@[simp] theorem State.goTo_reports (s : State) (q : Seq) : (s.goTo q).reports = s.reports := rfl
@[simp] theorem State.goTo_hostQueue (s : State) (q : Seq) : (s.goTo q).hostQueue = s.hostQueue := rfl
@[simp] theorem State.goTo_lineIn (s : State) (q : Seq) : (s.goTo q).lineIn = s.lineIn := rfl
@[simp] theorem State.goTo_schedule (s : State) (q : Seq) : (s.goTo q).schedule = s.schedule := rfl

@[simp] theorem State.txWrite_lastCmd (s : State) (b : Byte) : (s.txWrite b).lastCmd = s.lastCmd := rfl
@[simp] theorem State.txWrite_lastValid (s : State) (b : Byte) : (s.txWrite b).lastValid = s.lastValid := rfl
@[simp] theorem State.txWrite_seq (s : State) (b : Byte) : (s.txWrite b).seq = s.seq := rfl
@[simp] theorem State.txWrite_settlePending (s : State) (b : Byte) : (s.txWrite b).settlePending = s.settlePending := rfl
@[simp] theorem State.txWrite_txCmd (s : State) (b : Byte) : (s.txWrite b).txCmd = s.txCmd := rfl
@[simp] theorem State.txWrite_txLen (s : State) (b : Byte) : (s.txWrite b).txLen = s.txLen := rfl
@[simp] theorem State.txWrite_txIdx (s : State) (b : Byte) : (s.txWrite b).txIdx = s.txIdx := rfl
@[simp] theorem State.txWrite_txAcc (s : State) (b : Byte) : (s.txWrite b).txAcc = s.txAcc := rfl
@[simp] theorem State.txWrite_txBuf (s : State) (b : Byte) : (s.txWrite b).txBuf = s.txBuf := rfl
@[simp] theorem State.txWrite_rxCap (s : State) (b : Byte) : (s.txWrite b).rxCap = s.rxCap := rfl
@[simp] theorem State.txWrite_rxLen (s : State) (b : Byte) : (s.txWrite b).rxLen = s.rxLen := rfl
@[simp] theorem State.txWrite_rxCmd (s : State) (b : Byte) : (s.txWrite b).rxCmd = s.rxCmd := rfl
@[simp] theorem State.txWrite_rxMismatch (s : State) (b : Byte) : (s.txWrite b).rxMismatch = s.rxMismatch := rfl
@[simp] theorem State.txWrite_rxAcc (s : State) (b : Byte) : (s.txWrite b).rxAcc = s.rxAcc := rfl
@[simp] theorem State.txWrite_rxIdx (s : State) (b : Byte) : (s.txWrite b).rxIdx = s.rxIdx := rfl
@[simp] theorem State.txWrite_rxBuf (s : State) (b : Byte) : (s.txWrite b).rxBuf = s.rxBuf := rfl
@[simp] theorem State.txWrite_rxReady (s : State) (b : Byte) : (s.txWrite b).rxReady = s.rxReady := rfl
@[simp] theorem State.txWrite_resCode (s : State) (b : Byte) : (s.txWrite b).resCode = s.resCode := rfl
@[simp] theorem State.txWrite_resLen (s : State) (b : Byte) : (s.txWrite b).resLen = s.resLen := rfl
@[simp] theorem State.txWrite_resCmd (s : State) (b : Byte) : (s.txWrite b).resCmd = s.resCmd := rfl
@[simp] theorem State.txWrite_txs (s : State) (b : Byte) : (s.txWrite b).txs = s.txs ++ [b] := rfl
@[simp] theorem State.txWrite_rxs (s : State) (b : Byte) : (s.txWrite b).rxs = s.rxs := rfl
@[simp] theorem State.txWrite_reports (s : State) (b : Byte) : (s.txWrite b).reports = s.reports := rfl
@[simp] theorem State.txWrite_hostQueue (s : State) (b : Byte) : (s.txWrite b).hostQueue = s.hostQueue := rfl
@[simp] theorem State.txWrite_lineIn (s : State) (b : Byte) : (s.txWrite b).lineIn = s.lineIn := rfl
@[simp] theorem State.txWrite_schedule (s : State) (b : Byte) : (s.txWrite b).schedule = s.schedule := rfl

@[simp] theorem State.report_lastCmd (s : State) (r : Report) : (s.report r).lastCmd = s.lastCmd := rfl
@[simp] theorem State.report_lastValid (s : State) (r : Report) : (s.report r).lastValid = s.lastValid := rfl
@[simp] theorem State.report_seq (s : State) (r : Report) : (s.report r).seq = s.seq := rfl
@[simp] theorem State.report_settlePending (s : State) (r : Report) : (s.report r).settlePending = s.settlePending := rfl
@[simp] theorem State.report_txCmd (s : State) (r : Report) : (s.report r).txCmd = s.txCmd := rfl
@[simp] theorem State.report_txLen (s : State) (r : Report) : (s.report r).txLen = s.txLen := rfl
@[simp] theorem State.report_txIdx (s : State) (r : Report) : (s.report r).txIdx = s.txIdx := rfl
@[simp] theorem State.report_txAcc (s : State) (r : Report) : (s.report r).txAcc = s.txAcc := rfl
@[simp] theorem State.report_txBuf (s : State) (r : Report) : (s.report r).txBuf = s.txBuf := rfl
@[simp] theorem State.report_rxCap (s : State) (r : Report) : (s.report r).rxCap = s.rxCap := rfl
@[simp] theorem State.report_rxLen (s : State) (r : Report) : (s.report r).rxLen = s.rxLen := rfl
@[simp] theorem State.report_rxCmd (s : State) (r : Report) : (s.report r).rxCmd = s.rxCmd := rfl
@[simp] theorem State.report_rxMismatch (s : State) (r : Report) : (s.report r).rxMismatch = s.rxMismatch := rfl
@[simp] theorem State.report_rxAcc (s : State) (r : Report) : (s.report r).rxAcc = s.rxAcc := rfl
@[simp] theorem State.report_rxIdx (s : State) (r : Report) : (s.report r).rxIdx = s.rxIdx := rfl
@[simp] theorem State.report_rxBuf (s : State) (r : Report) : (s.report r).rxBuf = s.rxBuf := rfl
@[simp] theorem State.report_rxReady (s : State) (r : Report) : (s.report r).rxReady = s.rxReady := rfl
@[simp] theorem State.report_resCode (s : State) (r : Report) : (s.report r).resCode = s.resCode := rfl
@[simp] theorem State.report_resLen (s : State) (r : Report) : (s.report r).resLen = s.resLen := rfl
@[simp] theorem State.report_resCmd (s : State) (r : Report) : (s.report r).resCmd = s.resCmd := rfl
@[simp] theorem State.report_txs (s : State) (r : Report) : (s.report r).txs = s.txs := rfl
@[simp] theorem State.report_rxs (s : State) (r : Report) : (s.report r).rxs = s.rxs := rfl
@[simp] theorem State.report_reports (s : State) (r : Report) : (s.report r).reports = s.reports ++ [r] := rfl
@[simp] theorem State.report_hostQueue (s : State) (r : Report) : (s.report r).hostQueue = s.hostQueue := rfl
@[simp] theorem State.report_lineIn (s : State) (r : Report) : (s.report r).lineIn = s.lineIn := rfl
@[simp] theorem State.report_schedule (s : State) (r : Report) : (s.report r).schedule = s.schedule := rfl

@[simp] theorem State.recordCommand_lastCmd (s : State) (c : Byte) : (s.recordCommand c).lastCmd = c := rfl
@[simp] theorem State.recordCommand_lastValid (s : State) (c : Byte) : (s.recordCommand c).lastValid = true := rfl
@[simp] theorem State.recordCommand_seq (s : State) (c : Byte) : (s.recordCommand c).seq = s.seq := rfl
@[simp] theorem State.recordCommand_settlePending (s : State) (c : Byte) : (s.recordCommand c).settlePending = s.settlePending := rfl
@[simp] theorem State.recordCommand_txCmd (s : State) (c : Byte) : (s.recordCommand c).txCmd = s.txCmd := rfl
@[simp] theorem State.recordCommand_txLen (s : State) (c : Byte) : (s.recordCommand c).txLen = s.txLen := rfl
@[simp] theorem State.recordCommand_txIdx (s : State) (c : Byte) : (s.recordCommand c).txIdx = s.txIdx := rfl
@[simp] theorem State.recordCommand_txAcc (s : State) (c : Byte) : (s.recordCommand c).txAcc = s.txAcc := rfl
@[simp] theorem State.recordCommand_txBuf (s : State) (c : Byte) : (s.recordCommand c).txBuf = s.txBuf := rfl
@[simp] theorem State.recordCommand_rxCap (s : State) (c : Byte) : (s.recordCommand c).rxCap = s.rxCap := rfl
@[simp] theorem State.recordCommand_rxLen (s : State) (c : Byte) : (s.recordCommand c).rxLen = s.rxLen := rfl
@[simp] theorem State.recordCommand_rxCmd (s : State) (c : Byte) : (s.recordCommand c).rxCmd = s.rxCmd := rfl
@[simp] theorem State.recordCommand_rxMismatch (s : State) (c : Byte) : (s.recordCommand c).rxMismatch = s.rxMismatch := rfl
@[simp] theorem State.recordCommand_rxAcc (s : State) (c : Byte) : (s.recordCommand c).rxAcc = s.rxAcc := rfl
@[simp] theorem State.recordCommand_rxIdx (s : State) (c : Byte) : (s.recordCommand c).rxIdx = s.rxIdx := rfl
@[simp] theorem State.recordCommand_rxBuf (s : State) (c : Byte) : (s.recordCommand c).rxBuf = s.rxBuf := rfl
@[simp] theorem State.recordCommand_rxReady (s : State) (c : Byte) : (s.recordCommand c).rxReady = s.rxReady := rfl
@[simp] theorem State.recordCommand_resCode (s : State) (c : Byte) : (s.recordCommand c).resCode = s.resCode := rfl
@[simp] theorem State.recordCommand_resLen (s : State) (c : Byte) : (s.recordCommand c).resLen = s.resLen := rfl
@[simp] theorem State.recordCommand_resCmd (s : State) (c : Byte) : (s.recordCommand c).resCmd = s.resCmd := rfl
@[simp] theorem State.recordCommand_txs (s : State) (c : Byte) : (s.recordCommand c).txs = s.txs := rfl
@[simp] theorem State.recordCommand_rxs (s : State) (c : Byte) : (s.recordCommand c).rxs = s.rxs := rfl
@[simp] theorem State.recordCommand_reports (s : State) (c : Byte) : (s.recordCommand c).reports = s.reports := rfl
@[simp] theorem State.recordCommand_hostQueue (s : State) (c : Byte) : (s.recordCommand c).hostQueue = s.hostQueue := rfl
@[simp] theorem State.recordCommand_lineIn (s : State) (c : Byte) : (s.recordCommand c).lineIn = s.lineIn := rfl
@[simp] theorem State.recordCommand_schedule (s : State) (c : Byte) : (s.recordCommand c).schedule = s.schedule := rfl

@[simp] theorem State.discardPayload_lastCmd (s : State) : (s.discardPayload).lastCmd = s.lastCmd := rfl
@[simp] theorem State.discardPayload_lastValid (s : State) : (s.discardPayload).lastValid = s.lastValid := rfl
@[simp] theorem State.discardPayload_seq (s : State) : (s.discardPayload).seq = s.seq := rfl
@[simp] theorem State.discardPayload_settlePending (s : State) : (s.discardPayload).settlePending = s.settlePending := rfl
@[simp] theorem State.discardPayload_txCmd (s : State) : (s.discardPayload).txCmd = s.txCmd := rfl
@[simp] theorem State.discardPayload_txLen (s : State) : (s.discardPayload).txLen = s.txLen := rfl
@[simp] theorem State.discardPayload_txIdx (s : State) : (s.discardPayload).txIdx = s.txIdx := rfl
@[simp] theorem State.discardPayload_txAcc (s : State) : (s.discardPayload).txAcc = s.txAcc := rfl
@[simp] theorem State.discardPayload_txBuf (s : State) : (s.discardPayload).txBuf = s.txBuf := rfl
@[simp] theorem State.discardPayload_rxCap (s : State) : (s.discardPayload).rxCap = s.rxCap := rfl
@[simp] theorem State.discardPayload_rxLen (s : State) : (s.discardPayload).rxLen = s.rxLen := rfl
@[simp] theorem State.discardPayload_rxCmd (s : State) : (s.discardPayload).rxCmd = s.rxCmd := rfl
@[simp] theorem State.discardPayload_rxMismatch (s : State) : (s.discardPayload).rxMismatch = s.rxMismatch := rfl
@[simp] theorem State.discardPayload_rxAcc (s : State) : (s.discardPayload).rxAcc = s.rxAcc := rfl
@[simp] theorem State.discardPayload_rxIdx (s : State) : (s.discardPayload).rxIdx = s.rxIdx := rfl
@[simp] theorem State.discardPayload_rxBuf (s : State) : (s.discardPayload).rxBuf = [] := rfl
@[simp] theorem State.discardPayload_rxReady (s : State) : (s.discardPayload).rxReady = false := rfl
@[simp] theorem State.discardPayload_resCode (s : State) : (s.discardPayload).resCode = s.resCode := rfl
@[simp] theorem State.discardPayload_resLen (s : State) : (s.discardPayload).resLen = s.resLen := rfl
@[simp] theorem State.discardPayload_resCmd (s : State) : (s.discardPayload).resCmd = s.resCmd := rfl
@[simp] theorem State.discardPayload_txs (s : State) : (s.discardPayload).txs = s.txs := rfl
@[simp] theorem State.discardPayload_rxs (s : State) : (s.discardPayload).rxs = s.rxs := rfl
@[simp] theorem State.discardPayload_reports (s : State) : (s.discardPayload).reports = s.reports := rfl
@[simp] theorem State.discardPayload_hostQueue (s : State) : (s.discardPayload).hostQueue = s.hostQueue := rfl
@[simp] theorem State.discardPayload_lineIn (s : State) : (s.discardPayload).lineIn = s.lineIn := rfl
@[simp] theorem State.discardPayload_schedule (s : State) : (s.discardPayload).schedule = s.schedule := rfl

@[simp] theorem State.raise_lastCmd (s : State) (e : ResCode) : (s.raise e).lastCmd = s.lastCmd := rfl
@[simp] theorem State.raise_lastValid (s : State) (e : ResCode) : (s.raise e).lastValid = s.lastValid := rfl
@[simp] theorem State.raise_seq (s : State) (e : ResCode) : (s.raise e).seq = .idle := rfl
@[simp] theorem State.raise_settlePending (s : State) (e : ResCode) : (s.raise e).settlePending = s.settlePending := rfl
@[simp] theorem State.raise_txCmd (s : State) (e : ResCode) : (s.raise e).txCmd = s.txCmd := rfl
@[simp] theorem State.raise_txLen (s : State) (e : ResCode) : (s.raise e).txLen = s.txLen := rfl
@[simp] theorem State.raise_txIdx (s : State) (e : ResCode) : (s.raise e).txIdx = s.txIdx := rfl
@[simp] theorem State.raise_txAcc (s : State) (e : ResCode) : (s.raise e).txAcc = s.txAcc := rfl
@[simp] theorem State.raise_txBuf (s : State) (e : ResCode) : (s.raise e).txBuf = s.txBuf := rfl
@[simp] theorem State.raise_rxCap (s : State) (e : ResCode) : (s.raise e).rxCap = s.rxCap := rfl
@[simp] theorem State.raise_rxLen (s : State) (e : ResCode) : (s.raise e).rxLen = s.rxLen := rfl
@[simp] theorem State.raise_rxCmd (s : State) (e : ResCode) : (s.raise e).rxCmd = s.rxCmd := rfl
@[simp] theorem State.raise_rxMismatch (s : State) (e : ResCode) : (s.raise e).rxMismatch = s.rxMismatch := rfl
@[simp] theorem State.raise_rxAcc (s : State) (e : ResCode) : (s.raise e).rxAcc = s.rxAcc := rfl
@[simp] theorem State.raise_rxIdx (s : State) (e : ResCode) : (s.raise e).rxIdx = s.rxIdx := rfl
@[simp] theorem State.raise_rxBuf (s : State) (e : ResCode) : (s.raise e).rxBuf = [] := rfl
@[simp] theorem State.raise_rxReady (s : State) (e : ResCode) : (s.raise e).rxReady = false := rfl
@[simp] theorem State.raise_resCode (s : State) (e : ResCode) : (s.raise e).resCode = e := rfl
@[simp] theorem State.raise_resLen (s : State) (e : ResCode) : (s.raise e).resLen = s.resLen := rfl
@[simp] theorem State.raise_resCmd (s : State) (e : ResCode) : (s.raise e).resCmd = s.resCmd := rfl
@[simp] theorem State.raise_txs (s : State) (e : ResCode) : (s.raise e).txs = s.txs := rfl
@[simp] theorem State.raise_rxs (s : State) (e : ResCode) : (s.raise e).rxs = s.rxs := rfl
@[simp] theorem State.raise_reports (s : State) (e : ResCode) : (s.raise e).reports = s.reports ++ [.error e] := rfl
@[simp] theorem State.raise_hostQueue (s : State) (e : ResCode) : (s.raise e).hostQueue = s.hostQueue := rfl
@[simp] theorem State.raise_lineIn (s : State) (e : ResCode) : (s.raise e).lineIn = s.lineIn := rfl
@[simp] theorem State.raise_schedule (s : State) (e : ResCode) : (s.raise e).schedule = s.schedule := rfl

@[simp] theorem State.endSent_lastCmd (s : State) : (s.endSent).lastCmd = s.lastCmd := rfl
@[simp] theorem State.endSent_lastValid (s : State) : (s.endSent).lastValid = s.lastValid := rfl
@[simp] theorem State.endSent_seq (s : State) : (s.endSent).seq = .idle := rfl
@[simp] theorem State.endSent_settlePending (s : State) : (s.endSent).settlePending = s.settlePending := rfl
@[simp] theorem State.endSent_txCmd (s : State) : (s.endSent).txCmd = s.txCmd := rfl
@[simp] theorem State.endSent_txLen (s : State) : (s.endSent).txLen = s.txLen := rfl
@[simp] theorem State.endSent_txIdx (s : State) : (s.endSent).txIdx = s.txIdx := rfl
@[simp] theorem State.endSent_txAcc (s : State) : (s.endSent).txAcc = s.txAcc := rfl
@[simp] theorem State.endSent_txBuf (s : State) : (s.endSent).txBuf = [] := rfl
@[simp] theorem State.endSent_rxCap (s : State) : (s.endSent).rxCap = s.rxCap := rfl
@[simp] theorem State.endSent_rxLen (s : State) : (s.endSent).rxLen = s.rxLen := rfl
@[simp] theorem State.endSent_rxCmd (s : State) : (s.endSent).rxCmd = s.rxCmd := rfl
@[simp] theorem State.endSent_rxMismatch (s : State) : (s.endSent).rxMismatch = s.rxMismatch := rfl
@[simp] theorem State.endSent_rxAcc (s : State) : (s.endSent).rxAcc = s.rxAcc := rfl
@[simp] theorem State.endSent_rxIdx (s : State) : (s.endSent).rxIdx = s.rxIdx := rfl
@[simp] theorem State.endSent_rxBuf (s : State) : (s.endSent).rxBuf = [] := rfl
@[simp] theorem State.endSent_rxReady (s : State) : (s.endSent).rxReady = false := rfl
@[simp] theorem State.endSent_resCode (s : State) : (s.endSent).resCode = .sent := rfl
@[simp] theorem State.endSent_resLen (s : State) : (s.endSent).resLen = s.resLen := rfl
@[simp] theorem State.endSent_resCmd (s : State) : (s.endSent).resCmd = s.resCmd := rfl
@[simp] theorem State.endSent_txs (s : State) : (s.endSent).txs = s.txs := rfl
@[simp] theorem State.endSent_rxs (s : State) : (s.endSent).rxs = s.rxs := rfl
@[simp] theorem State.endSent_reports (s : State) : (s.endSent).reports = s.reports ++ [.sent] := rfl
@[simp] theorem State.endSent_hostQueue (s : State) : (s.endSent).hostQueue = s.hostQueue := rfl
@[simp] theorem State.endSent_lineIn (s : State) : (s.endSent).lineIn = s.lineIn := rfl
@[simp] theorem State.endSent_schedule (s : State) : (s.endSent).schedule = s.schedule := rfl

@[simp] theorem State.endOk_lastCmd (s : State) : (s.endOk).lastCmd = s.lastCmd := rfl
@[simp] theorem State.endOk_lastValid (s : State) : (s.endOk).lastValid = s.lastValid := rfl
@[simp] theorem State.endOk_seq (s : State) : (s.endOk).seq = .idle := rfl
@[simp] theorem State.endOk_settlePending (s : State) : (s.endOk).settlePending = s.settlePending := rfl
@[simp] theorem State.endOk_txCmd (s : State) : (s.endOk).txCmd = s.txCmd := rfl
@[simp] theorem State.endOk_txLen (s : State) : (s.endOk).txLen = s.txLen := rfl
@[simp] theorem State.endOk_txIdx (s : State) : (s.endOk).txIdx = s.txIdx := rfl
@[simp] theorem State.endOk_txAcc (s : State) : (s.endOk).txAcc = s.txAcc := rfl
@[simp] theorem State.endOk_txBuf (s : State) : (s.endOk).txBuf = s.txBuf := rfl
@[simp] theorem State.endOk_rxCap (s : State) : (s.endOk).rxCap = s.rxCap := rfl
@[simp] theorem State.endOk_rxLen (s : State) : (s.endOk).rxLen = s.rxLen := rfl
@[simp] theorem State.endOk_rxCmd (s : State) : (s.endOk).rxCmd = s.rxCmd := rfl
@[simp] theorem State.endOk_rxMismatch (s : State) : (s.endOk).rxMismatch = s.rxMismatch := rfl
@[simp] theorem State.endOk_rxAcc (s : State) : (s.endOk).rxAcc = s.rxAcc := rfl
@[simp] theorem State.endOk_rxIdx (s : State) : (s.endOk).rxIdx = s.rxIdx := rfl
@[simp] theorem State.endOk_rxBuf (s : State) : (s.endOk).rxBuf = s.rxBuf := rfl
@[simp] theorem State.endOk_rxReady (s : State) : (s.endOk).rxReady = true := rfl
@[simp] theorem State.endOk_resCode (s : State) : (s.endOk).resCode = .ok := rfl
@[simp] theorem State.endOk_resLen (s : State) : (s.endOk).resLen = s.rxLen - 1#8 := rfl
@[simp] theorem State.endOk_resCmd (s : State) : (s.endOk).resCmd = s.rxCmd := rfl
@[simp] theorem State.endOk_txs (s : State) : (s.endOk).txs = s.txs := rfl
@[simp] theorem State.endOk_rxs (s : State) : (s.endOk).rxs = s.rxs := rfl
@[simp] theorem State.endOk_reports (s : State) : (s.endOk).reports = s.reports ++ [.received s.rxCmd (s.rxLen - 1#8) s.rxBuf] := rfl
@[simp] theorem State.endOk_hostQueue (s : State) : (s.endOk).hostQueue = s.hostQueue := rfl
@[simp] theorem State.endOk_lineIn (s : State) : (s.endOk).lineIn = s.lineIn := rfl
@[simp] theorem State.endOk_schedule (s : State) : (s.endOk).schedule = s.schedule := rfl

@[simp] theorem State.startTransmission_lastCmd (s : State) (c : Byte) (p : List Byte) : (s.startTransmission c p).lastCmd = s.lastCmd := rfl
@[simp] theorem State.startTransmission_lastValid (s : State) (c : Byte) (p : List Byte) : (s.startTransmission c p).lastValid = s.lastValid := rfl
@[simp] theorem State.startTransmission_seq (s : State) (c : Byte) (p : List Byte) : (s.startTransmission c p).seq = .txHdr := rfl
@[simp] theorem State.startTransmission_settlePending (s : State) (c : Byte) (p : List Byte) : (s.startTransmission c p).settlePending = s.settlePending := rfl
@[simp] theorem State.startTransmission_txCmd (s : State) (c : Byte) (p : List Byte) : (s.startTransmission c p).txCmd = c := rfl
@[simp] theorem State.startTransmission_txLen (s : State) (c : Byte) (p : List Byte) : (s.startTransmission c p).txLen = lengthByte p.length := rfl
@[simp] theorem State.startTransmission_txIdx (s : State) (c : Byte) (p : List Byte) : (s.startTransmission c p).txIdx = 0x00#8 := rfl
@[simp] theorem State.startTransmission_txAcc (s : State) (c : Byte) (p : List Byte) : (s.startTransmission c p).txAcc = BitVec.ofNat 8 (p.length + 1 + c.toNat) := rfl
@[simp] theorem State.startTransmission_txBuf (s : State) (c : Byte) (p : List Byte) : (s.startTransmission c p).txBuf = p := rfl
@[simp] theorem State.startTransmission_rxCap (s : State) (c : Byte) (p : List Byte) : (s.startTransmission c p).rxCap = s.rxCap := rfl
@[simp] theorem State.startTransmission_rxLen (s : State) (c : Byte) (p : List Byte) : (s.startTransmission c p).rxLen = s.rxLen := rfl
@[simp] theorem State.startTransmission_rxCmd (s : State) (c : Byte) (p : List Byte) : (s.startTransmission c p).rxCmd = s.rxCmd := rfl
@[simp] theorem State.startTransmission_rxMismatch (s : State) (c : Byte) (p : List Byte) : (s.startTransmission c p).rxMismatch = s.rxMismatch := rfl
@[simp] theorem State.startTransmission_rxAcc (s : State) (c : Byte) (p : List Byte) : (s.startTransmission c p).rxAcc = s.rxAcc := rfl
@[simp] theorem State.startTransmission_rxIdx (s : State) (c : Byte) (p : List Byte) : (s.startTransmission c p).rxIdx = s.rxIdx := rfl
@[simp] theorem State.startTransmission_rxBuf (s : State) (c : Byte) (p : List Byte) : (s.startTransmission c p).rxBuf = s.rxBuf := rfl
@[simp] theorem State.startTransmission_rxReady (s : State) (c : Byte) (p : List Byte) : (s.startTransmission c p).rxReady = s.rxReady := rfl
@[simp] theorem State.startTransmission_resCode (s : State) (c : Byte) (p : List Byte) : (s.startTransmission c p).resCode = s.resCode := rfl
@[simp] theorem State.startTransmission_resLen (s : State) (c : Byte) (p : List Byte) : (s.startTransmission c p).resLen = s.resLen := rfl
@[simp] theorem State.startTransmission_resCmd (s : State) (c : Byte) (p : List Byte) : (s.startTransmission c p).resCmd = s.resCmd := rfl
@[simp] theorem State.startTransmission_txs (s : State) (c : Byte) (p : List Byte) : (s.startTransmission c p).txs = s.txs := rfl
@[simp] theorem State.startTransmission_rxs (s : State) (c : Byte) (p : List Byte) : (s.startTransmission c p).rxs = s.rxs := rfl
@[simp] theorem State.startTransmission_reports (s : State) (c : Byte) (p : List Byte) : (s.startTransmission c p).reports = s.reports := rfl
@[simp] theorem State.startTransmission_hostQueue (s : State) (c : Byte) (p : List Byte) : (s.startTransmission c p).hostQueue = s.hostQueue := rfl
@[simp] theorem State.startTransmission_lineIn (s : State) (c : Byte) (p : List Byte) : (s.startTransmission c p).lineIn = s.lineIn := rfl
@[simp] theorem State.startTransmission_schedule (s : State) (c : Byte) (p : List Byte) : (s.startTransmission c p).schedule = s.schedule := rfl

@[simp] theorem State.startReception_lastCmd (s : State) (n : Nat) : (s.startReception n).lastCmd = s.lastCmd := rfl
@[simp] theorem State.startReception_lastValid (s : State) (n : Nat) : (s.startReception n).lastValid = s.lastValid := rfl
@[simp] theorem State.startReception_seq (s : State) (n : Nat) : (s.startReception n).seq = if s.settlePending then .rxSettle else .rxHunt := rfl
@[simp] theorem State.startReception_settlePending (s : State) (n : Nat) : (s.startReception n).settlePending = s.settlePending := rfl
@[simp] theorem State.startReception_txCmd (s : State) (n : Nat) : (s.startReception n).txCmd = s.txCmd := rfl
@[simp] theorem State.startReception_txLen (s : State) (n : Nat) : (s.startReception n).txLen = s.txLen := rfl
@[simp] theorem State.startReception_txIdx (s : State) (n : Nat) : (s.startReception n).txIdx = s.txIdx := rfl
@[simp] theorem State.startReception_txAcc (s : State) (n : Nat) : (s.startReception n).txAcc = s.txAcc := rfl
@[simp] theorem State.startReception_txBuf (s : State) (n : Nat) : (s.startReception n).txBuf = s.txBuf := rfl
@[simp] theorem State.startReception_rxCap (s : State) (n : Nat) : (s.startReception n).rxCap = n := rfl
@[simp] theorem State.startReception_rxLen (s : State) (n : Nat) : (s.startReception n).rxLen = s.rxLen := rfl
@[simp] theorem State.startReception_rxCmd (s : State) (n : Nat) : (s.startReception n).rxCmd = s.rxCmd := rfl
@[simp] theorem State.startReception_rxMismatch (s : State) (n : Nat) : (s.startReception n).rxMismatch = s.rxMismatch := rfl
@[simp] theorem State.startReception_rxAcc (s : State) (n : Nat) : (s.startReception n).rxAcc = s.rxAcc := rfl
@[simp] theorem State.startReception_rxIdx (s : State) (n : Nat) : (s.startReception n).rxIdx = s.rxIdx := rfl
@[simp] theorem State.startReception_rxBuf (s : State) (n : Nat) : (s.startReception n).rxBuf = [] := rfl
@[simp] theorem State.startReception_rxReady (s : State) (n : Nat) : (s.startReception n).rxReady = false := rfl
@[simp] theorem State.startReception_resCode (s : State) (n : Nat) : (s.startReception n).resCode = s.resCode := rfl
@[simp] theorem State.startReception_resLen (s : State) (n : Nat) : (s.startReception n).resLen = s.resLen := rfl
@[simp] theorem State.startReception_resCmd (s : State) (n : Nat) : (s.startReception n).resCmd = s.resCmd := rfl
@[simp] theorem State.startReception_txs (s : State) (n : Nat) : (s.startReception n).txs = s.txs := rfl
@[simp] theorem State.startReception_rxs (s : State) (n : Nat) : (s.startReception n).rxs = s.rxs := rfl
@[simp] theorem State.startReception_reports (s : State) (n : Nat) : (s.startReception n).reports = s.reports := rfl
@[simp] theorem State.startReception_hostQueue (s : State) (n : Nat) : (s.startReception n).hostQueue = s.hostQueue := rfl
@[simp] theorem State.startReception_lineIn (s : State) (n : Nat) : (s.startReception n).lineIn = s.lineIn := rfl
@[simp] theorem State.startReception_schedule (s : State) (n : Nat) : (s.startReception n).schedule = s.schedule := rfl

@[simp] theorem State.settleElapsed_lastCmd (s : State) : (s.settleElapsed).lastCmd = s.lastCmd := rfl
@[simp] theorem State.settleElapsed_lastValid (s : State) : (s.settleElapsed).lastValid = s.lastValid := rfl
@[simp] theorem State.settleElapsed_seq (s : State) : (s.settleElapsed).seq = s.seq := rfl
@[simp] theorem State.settleElapsed_settlePending (s : State) : (s.settleElapsed).settlePending = false := rfl
@[simp] theorem State.settleElapsed_txCmd (s : State) : (s.settleElapsed).txCmd = s.txCmd := rfl
@[simp] theorem State.settleElapsed_txLen (s : State) : (s.settleElapsed).txLen = s.txLen := rfl
@[simp] theorem State.settleElapsed_txIdx (s : State) : (s.settleElapsed).txIdx = s.txIdx := rfl
@[simp] theorem State.settleElapsed_txAcc (s : State) : (s.settleElapsed).txAcc = s.txAcc := rfl
@[simp] theorem State.settleElapsed_txBuf (s : State) : (s.settleElapsed).txBuf = s.txBuf := rfl
@[simp] theorem State.settleElapsed_rxCap (s : State) : (s.settleElapsed).rxCap = s.rxCap := rfl
@[simp] theorem State.settleElapsed_rxLen (s : State) : (s.settleElapsed).rxLen = s.rxLen := rfl
@[simp] theorem State.settleElapsed_rxCmd (s : State) : (s.settleElapsed).rxCmd = s.rxCmd := rfl
@[simp] theorem State.settleElapsed_rxMismatch (s : State) : (s.settleElapsed).rxMismatch = s.rxMismatch := rfl
@[simp] theorem State.settleElapsed_rxAcc (s : State) : (s.settleElapsed).rxAcc = s.rxAcc := rfl
@[simp] theorem State.settleElapsed_rxIdx (s : State) : (s.settleElapsed).rxIdx = s.rxIdx := rfl
@[simp] theorem State.settleElapsed_rxBuf (s : State) : (s.settleElapsed).rxBuf = s.rxBuf := rfl
@[simp] theorem State.settleElapsed_rxReady (s : State) : (s.settleElapsed).rxReady = s.rxReady := rfl
@[simp] theorem State.settleElapsed_resCode (s : State) : (s.settleElapsed).resCode = s.resCode := rfl
@[simp] theorem State.settleElapsed_resLen (s : State) : (s.settleElapsed).resLen = s.resLen := rfl
@[simp] theorem State.settleElapsed_resCmd (s : State) : (s.settleElapsed).resCmd = s.resCmd := rfl
@[simp] theorem State.settleElapsed_txs (s : State) : (s.settleElapsed).txs = s.txs := rfl
@[simp] theorem State.settleElapsed_rxs (s : State) : (s.settleElapsed).rxs = s.rxs := rfl
@[simp] theorem State.settleElapsed_reports (s : State) : (s.settleElapsed).reports = s.reports := rfl
@[simp] theorem State.settleElapsed_hostQueue (s : State) : (s.settleElapsed).hostQueue = s.hostQueue := rfl
@[simp] theorem State.settleElapsed_lineIn (s : State) : (s.settleElapsed).lineIn = s.lineIn := rfl
@[simp] theorem State.settleElapsed_schedule (s : State) : (s.settleElapsed).schedule = s.schedule := rfl

@[simp] theorem State.tick_lastCmd (s : State) : (s.tick).lastCmd = s.lastCmd := rfl
@[simp] theorem State.tick_lastValid (s : State) : (s.tick).lastValid = s.lastValid := rfl
@[simp] theorem State.tick_seq (s : State) : (s.tick).seq = s.seq := rfl
@[simp] theorem State.tick_settlePending (s : State) : (s.tick).settlePending = s.settlePending := rfl
@[simp] theorem State.tick_txCmd (s : State) : (s.tick).txCmd = s.txCmd := rfl
@[simp] theorem State.tick_txLen (s : State) : (s.tick).txLen = s.txLen := rfl
@[simp] theorem State.tick_txIdx (s : State) : (s.tick).txIdx = s.txIdx := rfl
@[simp] theorem State.tick_txAcc (s : State) : (s.tick).txAcc = s.txAcc := rfl
@[simp] theorem State.tick_txBuf (s : State) : (s.tick).txBuf = s.txBuf := rfl
@[simp] theorem State.tick_rxCap (s : State) : (s.tick).rxCap = s.rxCap := rfl
@[simp] theorem State.tick_rxLen (s : State) : (s.tick).rxLen = s.rxLen := rfl
@[simp] theorem State.tick_rxCmd (s : State) : (s.tick).rxCmd = s.rxCmd := rfl
@[simp] theorem State.tick_rxMismatch (s : State) : (s.tick).rxMismatch = s.rxMismatch := rfl
@[simp] theorem State.tick_rxAcc (s : State) : (s.tick).rxAcc = s.rxAcc := rfl
@[simp] theorem State.tick_rxIdx (s : State) : (s.tick).rxIdx = s.rxIdx := rfl
@[simp] theorem State.tick_rxBuf (s : State) : (s.tick).rxBuf = s.rxBuf := rfl
@[simp] theorem State.tick_rxReady (s : State) : (s.tick).rxReady = s.rxReady := rfl
@[simp] theorem State.tick_resCode (s : State) : (s.tick).resCode = s.resCode := rfl
@[simp] theorem State.tick_resLen (s : State) : (s.tick).resLen = s.resLen := rfl
@[simp] theorem State.tick_resCmd (s : State) : (s.tick).resCmd = s.resCmd := rfl
@[simp] theorem State.tick_txs (s : State) : (s.tick).txs = s.txs := rfl
@[simp] theorem State.tick_rxs (s : State) : (s.tick).rxs = s.rxs := rfl
@[simp] theorem State.tick_reports (s : State) : (s.tick).reports = s.reports := rfl
@[simp] theorem State.tick_hostQueue (s : State) : (s.tick).hostQueue = s.hostQueue := rfl
@[simp] theorem State.tick_lineIn (s : State) : (s.tick).lineIn = s.lineIn := rfl
@[simp] theorem State.tick_schedule (s : State) : (s.tick).schedule = s.schedule.tail := rfl

@[simp] theorem State.withRequest_lastCmd (s : State) (m : List Byte) : (s.withRequest m).lastCmd = s.lastCmd := rfl
@[simp] theorem State.withRequest_lastValid (s : State) (m : List Byte) : (s.withRequest m).lastValid = s.lastValid := rfl
@[simp] theorem State.withRequest_seq (s : State) (m : List Byte) : (s.withRequest m).seq = s.seq := rfl
@[simp] theorem State.withRequest_settlePending (s : State) (m : List Byte) : (s.withRequest m).settlePending = s.settlePending := rfl
@[simp] theorem State.withRequest_txCmd (s : State) (m : List Byte) : (s.withRequest m).txCmd = s.txCmd := rfl
@[simp] theorem State.withRequest_txLen (s : State) (m : List Byte) : (s.withRequest m).txLen = s.txLen := rfl
@[simp] theorem State.withRequest_txIdx (s : State) (m : List Byte) : (s.withRequest m).txIdx = s.txIdx := rfl
@[simp] theorem State.withRequest_txAcc (s : State) (m : List Byte) : (s.withRequest m).txAcc = s.txAcc := rfl
@[simp] theorem State.withRequest_txBuf (s : State) (m : List Byte) : (s.withRequest m).txBuf = s.txBuf := rfl
@[simp] theorem State.withRequest_rxCap (s : State) (m : List Byte) : (s.withRequest m).rxCap = s.rxCap := rfl
@[simp] theorem State.withRequest_rxLen (s : State) (m : List Byte) : (s.withRequest m).rxLen = s.rxLen := rfl
@[simp] theorem State.withRequest_rxCmd (s : State) (m : List Byte) : (s.withRequest m).rxCmd = s.rxCmd := rfl
@[simp] theorem State.withRequest_rxMismatch (s : State) (m : List Byte) : (s.withRequest m).rxMismatch = s.rxMismatch := rfl
@[simp] theorem State.withRequest_rxAcc (s : State) (m : List Byte) : (s.withRequest m).rxAcc = s.rxAcc := rfl
@[simp] theorem State.withRequest_rxIdx (s : State) (m : List Byte) : (s.withRequest m).rxIdx = s.rxIdx := rfl
@[simp] theorem State.withRequest_rxBuf (s : State) (m : List Byte) : (s.withRequest m).rxBuf = s.rxBuf := rfl
@[simp] theorem State.withRequest_rxReady (s : State) (m : List Byte) : (s.withRequest m).rxReady = s.rxReady := rfl
@[simp] theorem State.withRequest_resCode (s : State) (m : List Byte) : (s.withRequest m).resCode = s.resCode := rfl
@[simp] theorem State.withRequest_resLen (s : State) (m : List Byte) : (s.withRequest m).resLen = s.resLen := rfl
@[simp] theorem State.withRequest_resCmd (s : State) (m : List Byte) : (s.withRequest m).resCmd = s.resCmd := rfl
@[simp] theorem State.withRequest_txs (s : State) (m : List Byte) : (s.withRequest m).txs = s.txs := rfl
@[simp] theorem State.withRequest_rxs (s : State) (m : List Byte) : (s.withRequest m).rxs = s.rxs := rfl
@[simp] theorem State.withRequest_reports (s : State) (m : List Byte) : (s.withRequest m).reports = s.reports := rfl
@[simp] theorem State.withRequest_hostQueue (s : State) (m : List Byte) : (s.withRequest m).hostQueue = .present m :: s.hostQueue := rfl
@[simp] theorem State.withRequest_lineIn (s : State) (m : List Byte) : (s.withRequest m).lineIn = s.lineIn := rfl
@[simp] theorem State.withRequest_schedule (s : State) (m : List Byte) : (s.withRequest m).schedule = .host :: s.schedule := rfl

@[simp] theorem State.blockReset_lastCmd (s : State) : (s.blockReset).lastCmd = State.reset.lastCmd := rfl
@[simp] theorem State.blockReset_lastValid (s : State) : (s.blockReset).lastValid = State.reset.lastValid := rfl
@[simp] theorem State.blockReset_seq (s : State) : (s.blockReset).seq = State.reset.seq := rfl
@[simp] theorem State.blockReset_settlePending (s : State) : (s.blockReset).settlePending = State.reset.settlePending := rfl
@[simp] theorem State.blockReset_txCmd (s : State) : (s.blockReset).txCmd = State.reset.txCmd := rfl
@[simp] theorem State.blockReset_txLen (s : State) : (s.blockReset).txLen = State.reset.txLen := rfl
@[simp] theorem State.blockReset_txIdx (s : State) : (s.blockReset).txIdx = State.reset.txIdx := rfl
@[simp] theorem State.blockReset_txAcc (s : State) : (s.blockReset).txAcc = State.reset.txAcc := rfl
@[simp] theorem State.blockReset_txBuf (s : State) : (s.blockReset).txBuf = State.reset.txBuf := rfl
@[simp] theorem State.blockReset_rxCap (s : State) : (s.blockReset).rxCap = State.reset.rxCap := rfl
@[simp] theorem State.blockReset_rxLen (s : State) : (s.blockReset).rxLen = State.reset.rxLen := rfl
@[simp] theorem State.blockReset_rxCmd (s : State) : (s.blockReset).rxCmd = State.reset.rxCmd := rfl
@[simp] theorem State.blockReset_rxMismatch (s : State) : (s.blockReset).rxMismatch = State.reset.rxMismatch := rfl
@[simp] theorem State.blockReset_rxAcc (s : State) : (s.blockReset).rxAcc = State.reset.rxAcc := rfl
@[simp] theorem State.blockReset_rxIdx (s : State) : (s.blockReset).rxIdx = State.reset.rxIdx := rfl
@[simp] theorem State.blockReset_rxBuf (s : State) : (s.blockReset).rxBuf = State.reset.rxBuf := rfl
@[simp] theorem State.blockReset_rxReady (s : State) : (s.blockReset).rxReady = State.reset.rxReady := rfl
@[simp] theorem State.blockReset_resCode (s : State) : (s.blockReset).resCode = State.reset.resCode := rfl
@[simp] theorem State.blockReset_resLen (s : State) : (s.blockReset).resLen = State.reset.resLen := rfl
@[simp] theorem State.blockReset_resCmd (s : State) : (s.blockReset).resCmd = State.reset.resCmd := rfl
@[simp] theorem State.blockReset_txs (s : State) : (s.blockReset).txs = s.txs := rfl
@[simp] theorem State.blockReset_rxs (s : State) : (s.blockReset).rxs = s.rxs := rfl
@[simp] theorem State.blockReset_reports (s : State) : (s.blockReset).reports = s.reports := rfl
@[simp] theorem State.blockReset_hostQueue (s : State) : (s.blockReset).hostQueue = s.hostQueue := rfl
@[simp] theorem State.blockReset_lineIn (s : State) : (s.blockReset).lineIn = s.lineIn := rfl
@[simp] theorem State.blockReset_schedule (s : State) : (s.blockReset).schedule = s.schedule := rfl

end Sys2Proof.Machine
end

