-- ==== Sys2Proof/Laws/Ops.lean ====
section
/-! SUPPORT. For each shared operation, once, everything it can do. -/

namespace Sys2Proof.Machine

@[simp] theorem State.busy_eq_false (s : State) : s.busy = false ↔ s.seq = .idle := by simp [State.busy]

@[simp] theorem State.busy_eq_true (s : State) : s.busy = true ↔ s.seq ≠ .idle := by simp [State.busy]

theorem State.whenIdle_idle {s : State} (k : State → Result) (h : s.seq = .idle) : s.whenIdle k = k s := by
  simp [State.whenIdle, State.busy, h]

theorem State.whenIdle_busy {s : State} (k : State → Result) (h : s.seq ≠ .idle) : s.whenIdle k = .next s := by
  simp [State.whenIdle, State.busy, h]

/-- Everything `whenIdle` can do. -/
theorem State.whenIdle_cases (s : State) (k : State → Result) :
    (s.seq = .idle ∧ s.whenIdle k = k s) ∨ (s.seq ≠ .idle ∧ s.whenIdle k = .next s) := by
  by_cases h : s.seq = .idle
  · exact .inl ⟨h, whenIdle_idle k h⟩
  · exact .inr ⟨h, whenIdle_busy k h⟩

theorem State.rxRead_nil {s : State} (k : Byte → State → Result) (h : s.rxs = []) : s.rxRead k = .next s := by
  simp [State.rxRead, h]

theorem State.rxRead_cons {s : State} {b : Byte} {rest : List Byte} (k : Byte → State → Result) (h : s.rxs = b :: rest) :
    s.rxRead k = k b { s with rxs := rest } := by
  simp [State.rxRead, h]

/-- Everything `RxRead` can do: wait, or hand on the oldest byte. -/
theorem State.rxRead_cases (s : State) (k : Byte → State → Result) :
    (s.rxs = [] ∧ s.rxRead k = .next s) ∨ (∃ b rest, s.rxs = b :: rest ∧ s.rxRead k = k b { s with rxs := rest }) := by
  cases h : s.rxs with
  | nil => exact .inl ⟨rfl, rxRead_nil k h⟩
  | cons b rest => exact .inr ⟨b, rest, rfl, rxRead_cons k h⟩

/-- Everything an accepted SEND can do. -/
theorem State.acceptSend_cases (s : State) (cmd : Byte) (p : List Byte) :
    (maxPayload < p.length ∧ s.acceptSend cmd p = (s.recordCommand cmd).raise .oversizedPayload) ∨
    (p.length ≤ maxPayload ∧ s.acceptSend cmd p = (s.recordCommand cmd).startTransmission cmd p) := by
  by_cases h : maxPayload < p.length
  · exact .inl ⟨h, by simp [acceptSend, h]⟩
  · exact .inr ⟨Nat.not_lt.1 h, by simp [acceptSend, h]⟩

/-- Everything an accepted RECV can do. -/
theorem State.acceptRecv_cases (s : State) (cap : Nat) :
    (s.lastValid = false ∧ s.acceptRecv cap = s.raise .noCommand) ∨
    (s.lastValid = true ∧ s.acceptRecv cap = s.startReception cap) := by
  cases h : s.lastValid
  · exact .inl ⟨rfl, by simp [acceptRecv, h]⟩
  · exact .inr ⟨rfl, by simp [acceptRecv, h]⟩

/-- Everything a CANCEL can do. -/
theorem State.acceptCancel_cases (s : State) :
    (s.seq.isReceive = true ∧ s.acceptCancel = s.raise .timeout) ∨ (s.seq.isReceive = false ∧ s.acceptCancel = s) := by
  cases h : s.seq.isReceive
  · exact .inr ⟨rfl, by simp [acceptCancel, h]⟩
  · exact .inl ⟨rfl, by simp [acceptCancel, h]⟩

/-- Everything reading the payload can do: fault for want of one, or read `res_len` cells of the buffer of a RECV that ended
`Ok`. -/
theorem State.payload_cases (s : State) :
    ((s.rxReady = false ∨ s.resCode ≠ .ok) ∧ s.payload = .error .noPayload) ∨
    (s.rxReady = true ∧ s.resCode = .ok ∧ s.payload = s.readCells 0 s.resLen.toNat) := by
  by_cases h : s.rxReady = true ∧ s.resCode = .ok
  · exact .inr ⟨h.1, h.2, by rw [payload, if_pos h]⟩
  · refine .inl ⟨?_, by rw [payload, if_neg h]⟩
    cases hr : s.rxReady
    · exact .inl rfl
    · exact .inr fun hc => h ⟨hr, hc⟩

/-- Everything a decoder call can do: wait, fault for want of a payload, or hand the caller a value. -/
theorem applyDecoder_cases (f : List Byte → DecValue) (s : State) :
    (s.seq ≠ .idle ∧ applyDecoder f s = .next s) ∨
    (s.seq = .idle ∧ ∃ e, s.payload = .error e ∧ applyDecoder f s = .fault e) ∨
    (s.seq = .idle ∧ ∃ p, s.payload = .ok p ∧
      applyDecoder f s = .next (s.report (.decoded (f p) ((f p).meaning s.lastCmd)))) := by
  rcases s.whenIdle_cases _ with ⟨h, e⟩ | ⟨h, e⟩
  · refine .inr ?_
    unfold applyDecoder
    rw [e]
    cases hp : s.payload with
    | error e => exact .inl ⟨h, e, rfl, rfl⟩
    | ok p => exact .inr ⟨h, p, rfl, rfl⟩
  · exact .inl ⟨h, e⟩

/-- Everything a delivery can do. -/
theorem State.deliver_cases (s : State) :
    (s.lineIn = [] ∧ s.deliver = s) ∨
    (∃ b rest, s.lineIn = b :: rest ∧ s.deliver = { s with rxs := s.rxs ++ [b], lineIn := rest }) := by
  cases h : s.lineIn with
  | nil => exact .inl ⟨rfl, by simp [deliver, h]⟩
  | cons b rest => exact .inr ⟨b, rest, rfl, by simp [deliver, h]⟩

/-- What is taken from the host's queue: CANCEL always, everything else in `IDLE`. -/
theorem State.takesRequest_eq (s : State) (i : Instr) : s.takesRequest i = (decide (i = .cancel) || !s.busy) := by
  cases i <;> simp [takesRequest]

/-- A request that is taken leaves the queue. -/
theorem State.fetched_taken {s : State} {i : Instr} (rest : List HostMove) (h : i = .cancel ∨ s.seq = .idle) :
    s.fetched i rest = { s with hostQueue := rest } := by
  have : s.takesRequest i = true := by rcases h with h | h <;> simp [takesRequest_eq, busy, h]
  simp [fetched, this]

/-- A request that is held off stays, and nothing changes. -/
theorem State.fetched_held {s : State} {i : Instr} (rest : List HostMove) (hi : i ≠ .cancel) (hs : s.seq ≠ .idle) :
    s.fetched i rest = s := by
  have : s.takesRequest i = false := by simp [takesRequest_eq, busy, hi, hs]
  simp [fetched, this]

/-- The four shapes of a meaning: a SEND, a RECV, a CANCEL, a decoder call. Only CANCEL is taken while the block is busy. -/
theorem exec_shape (i : Instr) (s : State) :
    (∃ cmd p, sentCommand i = some (cmd, p) ∧ s.takesRequest i = !s.busy ∧ exec i s = issueCommand cmd p s) ∨
    (∃ cap, i = .recv cap ∧ s.takesRequest i = !s.busy ∧ exec i s = execRecv cap s) ∨
    (i = .cancel ∧ s.takesRequest i = true ∧ exec i s = .next s.acceptCancel) ∨
    (∃ f, sentCommand i = none ∧ s.takesRequest i = !s.busy ∧ exec i s = applyDecoder f s) := by
  cases i with
  | recv cap => exact .inr (.inl ⟨cap, rfl, rfl, rfl⟩)
  | cancel => exact .inr (.inr (.inl ⟨rfl, rfl, rfl⟩))
  | decTag => exact .inr (.inr (.inr ⟨_, rfl, rfl, rfl⟩))
  | decFwString => exact .inr (.inr (.inr ⟨_, rfl, rfl, rfl⟩))
  | decFwU32 => exact .inr (.inr (.inr ⟨_, rfl, rfl, rfl⟩))
  | decAuth => exact .inr (.inr (.inr ⟨_, rfl, rfl, rfl⟩))
  | decReadBlock => exact .inr (.inr (.inr ⟨_, rfl, rfl, rfl⟩))
  | decReadValue => exact .inr (.inr (.inr ⟨_, rfl, rfl, rfl⟩))
  | _ => exact .inl ⟨_, _, rfl, rfl, rfl⟩

/-- Everything an instruction can do: nothing while the block is busy; in `IDLE` a SEND, a RECV or a decoder call; a CANCEL at
any time. -/
theorem exec_cases (i : Instr) (s : State) :
    (s.seq ≠ .idle ∧ i ≠ .cancel ∧ exec i s = .next s) ∨
    (s.seq = .idle ∧ ∃ cmd p, sentCommand i = some (cmd, p) ∧ exec i s = .next (s.acceptSend cmd p)) ∨
    (s.seq = .idle ∧ ∃ cap, i = .recv cap ∧ exec i s = .next (s.acceptRecv cap)) ∨
    (i = .cancel ∧ exec i s = .next s.acceptCancel) ∨
    (s.seq = .idle ∧ sentCommand i = none ∧ ∃ f, exec i s = applyDecoder f s) := by
  rcases exec_shape i s with ⟨cmd, p, hi, ht, e⟩ | ⟨cap, rfl, ht, e⟩ | ⟨rfl, _, e⟩ | ⟨f, hi, ht, e⟩
  · have hc : i ≠ .cancel := by rintro rfl; cases hi
    rcases s.whenIdle_cases (fun s => .next (s.acceptSend cmd p)) with ⟨h, e'⟩ | ⟨h, e'⟩
    · exact .inr (.inl ⟨h, cmd, p, hi, e.trans e'⟩)
    · exact .inl ⟨h, hc, e.trans e'⟩
  · rcases s.whenIdle_cases (fun s => .next (s.acceptRecv cap)) with ⟨h, e'⟩ | ⟨h, e'⟩
    · exact .inr (.inr (.inl ⟨h, cap, rfl, e.trans e'⟩))
    · exact .inl ⟨h, by simp, e.trans e'⟩
  · exact .inr (.inr (.inr (.inl ⟨rfl, e⟩)))
  · by_cases hc : i = .cancel
    · subst hc; exact .inr (.inr (.inr (.inl ⟨rfl, rfl⟩)))
    · rcases applyDecoder_cases f s with ⟨h, e'⟩ | ⟨h, _⟩ | ⟨h, _⟩
      · exact .inl ⟨h, hc, e.trans e'⟩
      · exact .inr (.inr (.inr (.inr ⟨h, hi, f, e⟩)))
      · exact .inr (.inr (.inr (.inr ⟨h, hi, f, e⟩)))

end Sys2Proof.Machine
end

