-- ==== Sys2Proof/Laws/PerInstr.lean ====
section
/-! SUPPORT. A statement about every instruction as syntax, one lemma per constructor: how long its request image is. -/

namespace Sys2Proof.Laws.EncodeLength

/-- The image of a well-formed instruction has at least the byte that selects it and fits the longest image. -/
def Statement (i : Instr) : Prop :=
  i.wellFormed = true → 1 ≤ (encode i).length ∧ (encode i).length ≤ longestImage

/-- A frame is its payload and five bytes (R67). -/
theorem encodeFrame_fits (code : Byte) (p : List Byte) (h : p.length ≤ maxFrameImagePayload) :
    1 ≤ (Machine.encodeFrame code p).length ∧ (Machine.encodeFrame code p).length ≤ longestImage := by
  unfold maxFrameImagePayload at h
  simp [Machine.encodeFrame, longestImage]
  omega

theorem send (cmd : Byte) (payload : List Byte) : Statement (.send cmd payload) := by
  intro h
  have h : payload.length ≤ 511 := by simpa [Instr.wellFormed] using h
  simp [encode, longestImage]
  omega

theorem recv (cap : Nat) : Statement (.recv cap) := fun _ => by simp [encode, longestImage]

theorem cancel : Statement .cancel := fun _ => by simp [encode, longestImage]

theorem reset (payload : List Byte) : Statement (.reset payload) := fun h =>
  encodeFrame_fits _ payload (by simpa [Instr.wellFormed] using h)

theorem getFirmware (payload : List Byte) : Statement (.getFirmware payload) := fun h =>
  encodeFrame_fits _ payload (by simpa [Instr.wellFormed] using h)

theorem seekTag (payload : List Byte) : Statement (.seekTag payload) := fun h =>
  encodeFrame_fits _ payload (by simpa [Instr.wellFormed] using h)

theorem selectTag (payload : List Byte) : Statement (.selectTag payload) := fun h =>
  encodeFrame_fits _ payload (by simpa [Instr.wellFormed] using h)

theorem authenticate (payload : List Byte) : Statement (.authenticate payload) := fun h =>
  encodeFrame_fits _ payload (by simpa [Instr.wellFormed] using h)

theorem readBlock (payload : List Byte) : Statement (.readBlock payload) := fun h =>
  encodeFrame_fits _ payload (by simpa [Instr.wellFormed] using h)

theorem readValue (payload : List Byte) : Statement (.readValue payload) := fun h =>
  encodeFrame_fits _ payload (by simpa [Instr.wellFormed] using h)

theorem writeBlock (payload : List Byte) : Statement (.writeBlock payload) := fun h =>
  encodeFrame_fits _ payload (by simpa [Instr.wellFormed] using h)

theorem writeValue (payload : List Byte) : Statement (.writeValue payload) := fun h =>
  encodeFrame_fits _ payload (by simpa [Instr.wellFormed] using h)

theorem writeUltralight (payload : List Byte) : Statement (.writeUltralight payload) := fun h =>
  encodeFrame_fits _ payload (by simpa [Instr.wellFormed] using h)

theorem writeKey (payload : List Byte) : Statement (.writeKey payload) := fun h =>
  encodeFrame_fits _ payload (by simpa [Instr.wellFormed] using h)

theorem increment (payload : List Byte) : Statement (.increment payload) := fun h =>
  encodeFrame_fits _ payload (by simpa [Instr.wellFormed] using h)

theorem decrement (payload : List Byte) : Statement (.decrement payload) := fun h =>
  encodeFrame_fits _ payload (by simpa [Instr.wellFormed] using h)

theorem antenna (payload : List Byte) : Statement (.antenna payload) := fun h =>
  encodeFrame_fits _ payload (by simpa [Instr.wellFormed] using h)

theorem readPort (payload : List Byte) : Statement (.readPort payload) := fun h =>
  encodeFrame_fits _ payload (by simpa [Instr.wellFormed] using h)

theorem writePort (payload : List Byte) : Statement (.writePort payload) := fun h =>
  encodeFrame_fits _ payload (by simpa [Instr.wellFormed] using h)

theorem halt (payload : List Byte) : Statement (.halt payload) := fun h =>
  encodeFrame_fits _ payload (by simpa [Instr.wellFormed] using h)

theorem setBaudRate (payload : List Byte) : Statement (.setBaudRate payload) := fun h =>
  encodeFrame_fits _ payload (by simpa [Instr.wellFormed] using h)

theorem sleep (payload : List Byte) : Statement (.sleep payload) := fun h =>
  encodeFrame_fits _ payload (by simpa [Instr.wellFormed] using h)

theorem decTag : Statement .decTag := fun _ => by simp [encode, longestImage]

theorem decFwString : Statement .decFwString := fun _ => by simp [encode, longestImage]

theorem decFwU32 : Statement .decFwU32 := fun _ => by simp [encode, longestImage]

theorem decAuth : Statement .decAuth := fun _ => by simp [encode, longestImage]

theorem decReadBlock : Statement .decReadBlock := fun _ => by simp [encode, longestImage]

theorem decReadValue : Statement .decReadValue := fun _ => by simp [encode, longestImage]

end Sys2Proof.Laws.EncodeLength
end

