-- ==== Sys2Proof/Tests/Slice0.lean ====
section
/-! SUPPORT. Tests: each expected result is the spec's (its encodings, its examples S1 to S4, its derived vectors E, DV and V of
95_test_vectors.md), never the model's own answer. After them, for every statement of Certificates/Slice0/Obligations.lean that
has hypotheses, a witness: concrete operands and states that meet them, clause by clause. -/

namespace Sys2Proof.Tests

open Sys2Proof.Machine

/-! ### Small states -/

/-- A state with an outstanding command, in a given sequencer state, with bytes to read. -/
def st (q : Seq) (last : Byte) (rxs : List Byte) : State :=
  { State.reset with seq := q, lastCmd := last, lastValid := true, rxs := rxs }

/-- A state whose last operation is a RECV that ended `Ok` with the payload `p`. -/
def holding (last : Byte) (p : List Byte) : State :=
  { State.reset with
    lastCmd := last, lastValid := true, rxReady := true, resCode := .ok, rxBuf := cellsOf p, resLen := BitVec.ofNat 8 p.length, rxCap := 254 }

/-- `n` zero bytes. -/
def zeros (n : Nat) : List Byte := List.replicate n 0x00#8

@[simp] theorem zeros_length (n : Nat) : (zeros n).length = n := List.length_replicate

/-- One field of a next state; none of a stop. -/
def after {α : Type} (f : State → α) : Result → Option α
  | .next s => some (f s)
  | .fault _ => none
  | .refused _ => none

/-! ### WellFormed refuses what no image holds -/

theorem test_wf_send :
    (Instr.send 0x81#8 (zeros 511)).wellFormed = true ∧ (Instr.send 0x81#8 (zeros 512)).wellFormed = false := by
  simp [Instr.wellFormed]

theorem test_wf_recv : (Instr.recv 255).wellFormed = true ∧ (Instr.recv 256).wellFormed = false := by decide

theorem test_wf_reset : (Instr.reset (zeros 255)).wellFormed = true ∧ (Instr.reset (zeros 256)).wellFormed = false := by
  simp [Instr.wellFormed]

theorem test_wf_get_firmware :
    (Instr.getFirmware (zeros 255)).wellFormed = true ∧ (Instr.getFirmware (zeros 256)).wellFormed = false := by
  simp [Instr.wellFormed]

theorem test_wf_seek_tag : (Instr.seekTag (zeros 255)).wellFormed = true ∧ (Instr.seekTag (zeros 256)).wellFormed = false := by
  simp [Instr.wellFormed]

theorem test_wf_select_tag :
    (Instr.selectTag (zeros 255)).wellFormed = true ∧ (Instr.selectTag (zeros 256)).wellFormed = false := by
  simp [Instr.wellFormed]

theorem test_wf_authenticate :
    (Instr.authenticate (zeros 255)).wellFormed = true ∧ (Instr.authenticate (zeros 256)).wellFormed = false := by
  simp [Instr.wellFormed]

theorem test_wf_read_block :
    (Instr.readBlock (zeros 255)).wellFormed = true ∧ (Instr.readBlock (zeros 256)).wellFormed = false := by
  simp [Instr.wellFormed]

theorem test_wf_read_value :
    (Instr.readValue (zeros 255)).wellFormed = true ∧ (Instr.readValue (zeros 256)).wellFormed = false := by
  simp [Instr.wellFormed]

theorem test_wf_write_block :
    (Instr.writeBlock (zeros 255)).wellFormed = true ∧ (Instr.writeBlock (zeros 256)).wellFormed = false := by
  simp [Instr.wellFormed]

theorem test_wf_write_value :
    (Instr.writeValue (zeros 255)).wellFormed = true ∧ (Instr.writeValue (zeros 256)).wellFormed = false := by
  simp [Instr.wellFormed]

theorem test_wf_write_ultralight :
    (Instr.writeUltralight (zeros 255)).wellFormed = true ∧ (Instr.writeUltralight (zeros 256)).wellFormed = false := by
  simp [Instr.wellFormed]

theorem test_wf_write_key :
    (Instr.writeKey (zeros 255)).wellFormed = true ∧ (Instr.writeKey (zeros 256)).wellFormed = false := by
  simp [Instr.wellFormed]

theorem test_wf_increment :
    (Instr.increment (zeros 255)).wellFormed = true ∧ (Instr.increment (zeros 256)).wellFormed = false := by
  simp [Instr.wellFormed]

theorem test_wf_decrement :
    (Instr.decrement (zeros 255)).wellFormed = true ∧ (Instr.decrement (zeros 256)).wellFormed = false := by
  simp [Instr.wellFormed]

theorem test_wf_antenna : (Instr.antenna (zeros 255)).wellFormed = true ∧ (Instr.antenna (zeros 256)).wellFormed = false := by
  simp [Instr.wellFormed]

theorem test_wf_read_port :
    (Instr.readPort (zeros 255)).wellFormed = true ∧ (Instr.readPort (zeros 256)).wellFormed = false := by
  simp [Instr.wellFormed]

theorem test_wf_write_port :
    (Instr.writePort (zeros 255)).wellFormed = true ∧ (Instr.writePort (zeros 256)).wellFormed = false := by
  simp [Instr.wellFormed]

theorem test_wf_halt : (Instr.halt (zeros 255)).wellFormed = true ∧ (Instr.halt (zeros 256)).wellFormed = false := by
  simp [Instr.wellFormed]

theorem test_wf_set_baud_rate :
    (Instr.setBaudRate (zeros 255)).wellFormed = true ∧ (Instr.setBaudRate (zeros 256)).wellFormed = false := by
  simp [Instr.wellFormed]

theorem test_wf_sleep : (Instr.sleep (zeros 255)).wellFormed = true ∧ (Instr.sleep (zeros 256)).wellFormed = false := by
  simp [Instr.wellFormed]

/-! ### Decoding: each row's bytes written out from R60, R66, R69, R73 (frames `FF 00 01 cc cc+1` of section 2.1) -/

theorem test_decode_send : decode [0x01#8, 0x86#8, 0x01#8, 0x00#8, 0x04#8] = .ok (.send 0x86#8 [0x04#8], []) := by decide

theorem test_decode_recv : decode [0x02#8, 0x10#8, 0x03#8] = .ok (.recv 16, [0x03#8]) := by decide

theorem test_decode_cancel : decode [0x03#8] = .ok (.cancel, []) := by decide

theorem test_decode_reset : decode [0xFF#8, 0x00#8, 0x01#8, 0x80#8, 0x81#8] = .ok (.reset [], []) := by decide

theorem test_decode_get_firmware : decode [0xFF#8, 0x00#8, 0x01#8, 0x81#8, 0x82#8] = .ok (.getFirmware [], []) := by decide

theorem test_decode_seek_tag : decode [0xFF#8, 0x00#8, 0x01#8, 0x82#8, 0x83#8] = .ok (.seekTag [], []) := by decide

theorem test_decode_select_tag : decode [0xFF#8, 0x00#8, 0x01#8, 0x83#8, 0x84#8] = .ok (.selectTag [], []) := by decide

theorem test_decode_authenticate : decode [0xFF#8, 0x00#8, 0x01#8, 0x85#8, 0x86#8] = .ok (.authenticate [], []) := by decide

theorem test_decode_read_block : decode [0xFF#8, 0x00#8, 0x01#8, 0x86#8, 0x87#8] = .ok (.readBlock [], []) := by decide

theorem test_decode_read_value : decode [0xFF#8, 0x00#8, 0x01#8, 0x87#8, 0x88#8] = .ok (.readValue [], []) := by decide

theorem test_decode_write_block : decode [0xFF#8, 0x00#8, 0x01#8, 0x89#8, 0x8A#8] = .ok (.writeBlock [], []) := by decide

theorem test_decode_write_value : decode [0xFF#8, 0x00#8, 0x01#8, 0x8A#8, 0x8B#8] = .ok (.writeValue [], []) := by decide

theorem test_decode_write_ultralight : decode [0xFF#8, 0x00#8, 0x01#8, 0x8B#8, 0x8C#8] = .ok (.writeUltralight [], []) := by decide

theorem test_decode_write_key : decode [0xFF#8, 0x00#8, 0x01#8, 0x8C#8, 0x8D#8] = .ok (.writeKey [], []) := by decide

theorem test_decode_increment : decode [0xFF#8, 0x00#8, 0x01#8, 0x8D#8, 0x8E#8] = .ok (.increment [], []) := by decide

theorem test_decode_decrement : decode [0xFF#8, 0x00#8, 0x01#8, 0x8E#8, 0x8F#8] = .ok (.decrement [], []) := by decide

theorem test_decode_antenna : decode [0xFF#8, 0x00#8, 0x01#8, 0x90#8, 0x91#8] = .ok (.antenna [], []) := by decide

theorem test_decode_read_port : decode [0xFF#8, 0x00#8, 0x01#8, 0x91#8, 0x92#8] = .ok (.readPort [], []) := by decide

theorem test_decode_write_port : decode [0xFF#8, 0x00#8, 0x01#8, 0x92#8, 0x93#8] = .ok (.writePort [], []) := by decide

theorem test_decode_halt : decode [0xFF#8, 0x00#8, 0x01#8, 0x93#8, 0x94#8] = .ok (.halt [], []) := by decide

theorem test_decode_set_baud_rate : decode [0xFF#8, 0x00#8, 0x01#8, 0x94#8, 0x95#8] = .ok (.setBaudRate [], []) := by decide

theorem test_decode_sleep : decode [0xFF#8, 0x00#8, 0x01#8, 0x96#8, 0x97#8] = .ok (.sleep [], []) := by decide

theorem test_decode_dec_tag : decode [0x04#8] = .ok (.decTag, []) := by decide

theorem test_decode_dec_fw_string : decode [0x08#8] = .ok (.decFwString, []) := by decide

theorem test_decode_dec_fw_u32 : decode [0x0C#8] = .ok (.decFwU32, []) := by decide

theorem test_decode_dec_auth : decode [0x10#8] = .ok (.decAuth, []) := by decide

theorem test_decode_dec_read_block : decode [0x14#8] = .ok (.decReadBlock, []) := by decide

theorem test_decode_dec_read_value : decode [0x18#8] = .ok (.decReadValue, []) := by decide

/-- Vector E6. -/
theorem test_decode_authenticate_frame :
    decode [0xFF#8, 0x00#8, 0x09#8, 0x85#8, 0x04#8, 0xAA#8, 0xFF#8, 0xFF#8, 0xFF#8, 0xFF#8, 0xFF#8, 0xFF#8, 0x36#8] =
      .ok (.authenticate [0x04#8, 0xAA#8, 0xFF#8, 0xFF#8, 0xFF#8, 0xFF#8, 0xFF#8, 0xFF#8], []) := by decide

/-- Table words: bit 31 of a FRAME row's word is the top bit of its first byte (R75). -/
theorem test_table_word_writes :
    decodeTableWord 32 0xFF000189 = some (.writeBlock []) ∧ decodeTableWord 32 0xFF000192 = some (.writePort []) := by
  constructor <;> rfl

theorem test_table_word_selectors :
    decodeTableWord 8 0b01 = some (.send 0x00#8 []) ∧ decodeTableWord 8 0b10 = some (.recv 0) ∧
    decodeTableWord 8 0b11 = some .cancel ∧ decodeTableWord 8 0b00 = none := by
  refine ⟨?_, ?_, ?_, ?_⟩ <;> rfl

theorem test_decode_error_empty : decode [] = .error .empty := by decide

theorem test_decode_error_no_operation : decode [0x00#8, 0x03#8] = .error .noOperation := by decide

theorem test_decode_error_selector : decode [0x1C#8] = .error (.unassignedSelector 0x1C#8) := by decide

theorem test_decode_error_reserved : decode [0xFF#8, 0x01#8, 0x01#8, 0x81#8, 0x82#8] = .error (.badReservedByte 0x01#8) := by
  decide

/-- The four holes of R70 and both ends of the range. -/
theorem test_decode_error_command : ∀ c ∈ [0x7F#8, 0x84#8, 0x88#8, 0x8F#8, 0x95#8, 0x97#8],
    decode [0xFF#8, 0x00#8, 0x01#8, c, 0x00#8] = .error (.unassignedCommand c) := by decide

theorem test_decode_error_length_field : decode [0x01#8, 0x86#8, 0x00#8, 0x02#8] = .error .badLengthField := by decide

theorem test_decode_error_truncated :
    decode [0xFF#8, 0x00#8, 0x02#8, 0x86#8, 0x04#8] = .error .truncated ∧ decode [0x02#8] = .error .truncated ∧
    decode [0x01#8, 0x86#8, 0x01#8, 0x00#8] = .error .truncated := by decide

/-! ### The frame: S1, E4, E7, E15 -/

/-- S1, the source's example. -/
theorem test_frame_get_firmware : encodeFrame 0x81#8 [] = [0xFF#8, 0x00#8, 0x01#8, 0x81#8, 0x82#8] := by decide

/-- E4. -/
theorem test_frame_read_block : encodeFrame 0x86#8 [0x04#8] = [0xFF#8, 0x00#8, 0x02#8, 0x86#8, 0x04#8, 0x8C#8] := by decide

/-- E7. -/
theorem test_frame_sum_wraps : encodeFrame 0x96#8 [0xFF#8, 0xFF#8] = [0xFF#8, 0x00#8, 0x03#8, 0x96#8, 0xFF#8, 0xFF#8, 0x97#8] := by decide

/-- E15. -/
theorem test_frame_checksum_zero : encodeFrame 0xFF#8 [0xFF#8] = [0xFF#8, 0x00#8, 0x02#8, 0xFF#8, 0xFF#8, 0x00#8] := by decide

/-! ### The decoder: vectors DV and the source's S2 -/

/-- S2 as printed: not a valid frame (90_conflicts.md C1). -/
theorem test_receive_reply_as_printed :
    decodeFrame 0x81#8 16 [0xFF#8, 0x00#8, 0x05#8, 0x81#8, 0x31#8, 0x2E#8, 0x30#8, 0x00#8, 0xB5#8] =
      .error .checksumError 9 := by decide

/-- S2a. -/
theorem test_receive_reply :
    decodeFrame 0x81#8 16 [0xFF#8, 0x00#8, 0x05#8, 0x81#8, 0x31#8, 0x2E#8, 0x30#8, 0x00#8, 0x15#8] =
      .ok 0x81#8 [0x31#8, 0x2E#8, 0x30#8, 0x00#8] 9 := by decide

/-- DV2: capacity 0 is enough. -/
theorem test_receive_empty_payload :
    decodeFrame 0x80#8 0 [0xFF#8, 0x00#8, 0x01#8, 0x80#8, 0x81#8] = .ok 0x80#8 [] 5 := by decide

/-- DV3. -/
theorem test_receive_garbage_skipped :
    decodeFrame 0x81#8 16 [0x00#8, 0x12#8, 0x7F#8, 0xFE#8, 0xFF#8, 0x00#8, 0x05#8, 0x81#8, 0x31#8, 0x2E#8, 0x30#8, 0x00#8, 0x15#8] =
      .ok 0x81#8 [0x31#8, 0x2E#8, 0x30#8, 0x00#8] 13 := by decide

/-- DV6. -/
theorem test_receive_second_header_lost :
    decodeFrame 0x81#8 16 [0xFF#8, 0xFF#8, 0x00#8, 0x01#8, 0x81#8, 0x82#8] = .error .framingError 2 := by decide

/-- DV7. -/
theorem test_receive_false_frame :
    decodeFrame 0x81#8 16 [0xFF#8, 0x00#8, 0x01#8, 0x55#8, 0xAA#8, 0xFF#8, 0x00#8, 0x01#8, 0x81#8, 0x82#8] =
      .error .correlationError 5 := by decide

/-- DV9. -/
theorem test_receive_length_zero :
    decodeFrame 0x81#8 16 [0xFF#8, 0x00#8, 0x00#8, 0x81#8, 0x81#8] = .error .framingError 3 := by decide

/-- DV10. -/
theorem test_receive_over_capacity :
    decodeFrame 0x83#8 4 [0xFF#8, 0x00#8, 0x06#8, 0x83#8, 0x02#8, 0xDE#8, 0xAD#8, 0xBE#8, 0xEF#8, 0xC3#8] =
      .error .capacityError 3 := by decide

/-- DV12: the wrong echo wins over the wrong checksum. -/
theorem test_receive_echo_before_checksum :
    decodeFrame 0x86#8 17 [0xFF#8, 0x00#8, 0x02#8, 0x85#8, 0x4C#8, 0x00#8, 0xAB#8] = .error .correlationError 6 := by decide

/-- DV13. -/
theorem test_receive_checksum :
    decodeFrame 0x85#8 17 [0xFF#8, 0x00#8, 0x02#8, 0x85#8, 0x4C#8, 0xD4#8] = .error .checksumError 6 := by decide

/-- DV14. -/
theorem test_receive_short_stream :
    decodeFrame 0x85#8 17 [0xFF#8, 0x00#8, 0x03#8, 0x85#8, 0x4C#8, 0xD3#8] = .blocked := by decide

/-- DV17: payload bytes are not examined. -/
theorem test_receive_header_in_payload :
    decodeFrame 0x86#8 16 [0xFF#8, 0x00#8, 0x05#8, 0x86#8, 0xFF#8, 0x00#8, 0x01#8, 0x86#8, 0x11#8] =
      .ok 0x86#8 [0xFF#8, 0x00#8, 0x01#8, 0x86#8] 9 := by decide

/-- DV21: not a checksum error. -/
theorem test_receive_undetected_length :
    decodeFrame 0x81#8 16 [0xFF#8, 0x00#8, 0x01#8, 0x81#8, 0x82#8, 0x05#8] = .ok 0x81#8 [] 5 := by decide

/-! ### Single moves: the register traces of E4 and DV1 -/

/-- E4, step 0. -/
theorem test_step_send : after (fun s => (s.seq, s.lastCmd, s.lastValid, s.txLen, s.txAcc))
    (exec (.readBlock [0x04#8]) State.reset) = some (.txHdr, 0x86#8, true, 0x02#8, 0x88#8) := by decide

/-- E4, step 5. -/
theorem test_step_payload_byte : after (fun s => (s.seq, s.txAcc, s.txIdx, s.txs))
    (codecStep { State.reset with seq := .txPay, txLen := 0x02#8, txAcc := 0x88#8, txBuf := [0x04#8] }) =
      some (.txCsum, 0x8C#8, 0x01#8, [0x04#8]) := by decide

/-- E12: an oversized SEND still records its command. -/
theorem test_step_oversized : after (fun s => (s.seq, s.lastCmd, s.lastValid, s.resCode, s.settlePending))
    (exec (.writeBlock (zeros 255)) State.reset) = some (.idle, 0x89#8, true, .oversizedPayload, false) := by
  simp [exec, execWriteBlock, issueCommand, State.whenIdle, State.busy, State.acceptSend, State.raise, State.discardPayload, State.recordCommand,
    State.reset, after]

/-- R211 with R25: after any error, a refused SEND too, there is no payload to read. -/
theorem test_step_oversized_leaves_no_payload : after (fun s => (s.rxBuf, s.rxReady))
    (exec (.writeBlock (zeros 255)) (holding 0x83#8 [0x4E#8])) = some ([], false) := by
  simp [exec, execWriteBlock, issueCommand, State.whenIdle, State.busy, State.acceptSend, State.raise, State.discardPayload,
    State.recordCommand, holding, State.reset, after]

/-- R25, D13: `Sent` is an outcome other than `Ok`, so the old payload is gone, and a decoder finds none (R27, U7). -/
theorem test_step_sent_leaves_no_payload :
    after (fun s => (s.resCode, s.rxBuf, s.payload.toOption)) (codecStep { holding 0x83#8 [0x4E#8] with seq := .txCsum }) =
      some (.sent, [], none) := by decide

/-- DV19. -/
theorem test_step_recv_no_command : after (fun s => (s.seq, s.resCode)) (exec (.recv 4) State.reset) = some (.idle, .noCommand) := by
  decide

/-- DV1, step 4. -/
theorem test_step_echo : after (fun s => (s.seq, s.rxCmd, s.rxMismatch, s.rxAcc))
    (codecStep { st .rxCmd 0x85#8 [0x85#8] with rxLen := 0x02#8 }) = some (.rxPay, 0x85#8, false, 0x87#8) := by decide

/-- DV1, step 5. -/
theorem test_step_stored_byte : after (fun s => (s.seq, s.rxAcc, s.rxBuf, s.rxIdx))
    (codecStep { st .rxPay 0x85#8 [0x4C#8] with rxLen := 0x02#8, rxAcc := 0x87#8, rxCap := 16 }) =
      some (.rxCsum, 0xD3#8, [(0, 0x4C#8)], 0x01#8) := by decide

/-- DV1, step 6. -/
theorem test_step_checksum : after (fun s => (s.seq, s.resCode, s.resCmd, s.resLen))
    (codecStep { st .rxCsum 0x85#8 [0xD3#8] with rxLen := 0x02#8, rxCmd := 0x85#8, rxAcc := 0xD3#8 }) =
      some (.idle, .ok, 0x85#8, 0x01#8) := by decide

/-- DV16: CANCEL on an empty stream. -/
theorem test_step_cancel : after (fun s => (s.seq, s.resCode, s.lastCmd)) (exec .cancel (st .rxHunt 0x85#8 [])) =
    some (.idle, .timeout, 0x85#8) := by decide

/-- R74: the numbers of the outcomes. -/
theorem test_outcome_numbers :
    [ResCode.ok, .sent, .framingError, .capacityError, .correlationError, .checksumError, .oversizedPayload, .timeout,
      .noCommand].map ResCode.number = [0#3, 0#3, 1#3, 2#3, 3#3, 4#3, 5#3, 6#3, 7#3] := by decide

/-! ### Response decoders: vectors V, with the spec's defaults of the open parameters -/

/-- V1. -/
theorem test_value_tag_with_serial :
    tagValue [0x02#8, 0xDE#8, 0xAD#8, 0xBE#8, 0xEF#8] = .tag 0x02#8 [0xDE#8, 0xAD#8, 0xBE#8, 0xEF#8] := by decide

/-- V2. -/
theorem test_value_tag_status :
    tagValue [0x4E#8] = .status 0x4E#8 := by decide

/-- V3. -/
theorem test_value_tag_no_response :
    tagValue [] = .noResponse := by decide

/-- V5. -/
theorem test_value_fw_u32 :
    fwU32Value Config.Default.fwIdx [0x31#8, 0x2E#8, 0x30#8, 0x00#8] = .fwU32 825110528#32 := by decide

/-- V8. -/
theorem test_value_fw_u32_short :
    fwU32Value Config.Default.fwIdx [0x31#8, 0x2E#8, 0x30#8] = .unexpectedResponse := by decide

/-- V8b. -/
theorem test_value_fw_string :
    fwStringValue [0x31#8, 0x2E#8, 0x30#8, 0x00#8] = .fwString [0x31#8, 0x2E#8, 0x30#8, 0x00#8] := by decide

/-- V9. -/
theorem test_value_auth_status :
    authValue [0x4C#8] = .status 0x4C#8 := by decide

/-- V11. -/
theorem test_value_auth_unexpected :
    authValue [0x4C#8, 0x00#8] = .unexpectedResponse := by decide

/-- V13. -/
theorem test_value_read_block :
    readBlockValue [0x04#8, 0x00#8, 0x01#8, 0x02#8, 0x03#8, 0x04#8, 0x05#8, 0x06#8, 0x07#8, 0x08#8, 0x09#8, 0x0A#8, 0x0B#8,
        0x0C#8, 0x0D#8, 0x0E#8, 0x0F#8] =
      .block 0x04#8 [0x00#8, 0x01#8, 0x02#8, 0x03#8, 0x04#8, 0x05#8, 0x06#8, 0x07#8, 0x08#8, 0x09#8, 0x0A#8, 0x0B#8, 0x0C#8,
        0x0D#8, 0x0E#8, 0x0F#8] := by decide

/-- V14. -/
theorem test_value_read_block_short :
    readBlockValue (zeros 16) = .unexpectedResponse := by decide

/-- V15b, S4. -/
theorem test_value_read_value_minus_one :
    readValueValue Config.Default.valueOffset [0xFF#8, 0xFF#8, 0xFF#8, 0xFF#8] = .value (-1) := by decide

/-- V15c. -/
theorem test_value_read_value_order :
    readValueValue Config.Default.valueOffset [0x78#8, 0x56#8, 0x34#8, 0x12#8] = .value 305419896 := by decide

/-- V17. -/
theorem test_value_read_value_offset :
    readValueValue 1 [0x05#8, 0x01#8, 0x00#8, 0x00#8, 0x00#8] = .value 1 := by decide

/-- V18, V9, V10: one byte, several meanings. -/
theorem test_status_overloaded :
    statusMeaning 0x93#8 0x4C#8 = some .halted ∧ statusMeaning 0x85#8 0x4C#8 = some .loginSuccessful ∧
    statusMeaning 0x82#8 0x4C#8 = none ∧ statusMeaning 0x85#8 0x55#8 = some .loginFailed ∧
    statusMeaning 0x90#8 0x55#8 = none := by
  decide

/-- P2: DEC_AUTH on the payload `4C` with AUTHENTICATE outstanding. -/
theorem test_step_dec_auth : after State.reports (exec .decAuth (holding 0x85#8 [0x4C#8])) =
    some [.decoded (.status 0x4C#8) (some .loginSuccessful)] := by decide

/-! ### Pseudo-operations: R78 with the payloads of R145 and R146 -/

theorem test_exchange_auth :
    (Exchange.auth 0x04#8 0xAA#8 #v[0xFF#8, 0xFF#8, 0xFF#8, 0xFF#8, 0xFF#8, 0xFE#8] 17).movesWith true =
      [.present [0x01#8, 0x85#8, 0x08#8, 0x00#8, 0x04#8, 0xAA#8, 0xFF#8, 0xFF#8, 0xFF#8, 0xFF#8, 0xFF#8, 0xFE#8],
        .presentIfOk [0x02#8, 0x11#8], .presentIfOk [0x10#8]] := by decide

theorem test_exchange_read_tag : (Exchange.readTagBySeek [] [] 8).movesWith true =
    [.present [0x01#8, 0x82#8, 0x00#8, 0x00#8], .presentIfOk [0x02#8, 0x08#8], .presentIfOk [0x04#8],
      .present [0x01#8, 0x80#8, 0x00#8, 0x00#8]] := by decide

/-! ### Witnesses: the hypotheses of each statement, met -/

theorem witness_DecodeInvertsEncode :
    (Instr.send 0x84#8 (zeros 511)).wellFormed = true ∧ (Instr.recv 255).wellFormed = true ∧
    (Instr.sleep (zeros 255)).wellFormed = true ∧ Instr.decReadValue.wellFormed = true := by simp [Instr.wellFormed]

theorem witness_DecodedInstructionIsWellFormed : decode [0x02#8, 0xFF#8, 0x00#8] = .ok (.recv 255, [0x00#8]) := by decide

theorem witness_FrameImageMatchedByMask : 256 ≤ (zeros 256).length := by simp

theorem witness_SendRecordsThenChecksThenStarts :
    State.reset.seq = .idle ∧ 254 < (zeros 255).length ∧ (zeros 254).length ≤ 254 := by simp [State.reset]

theorem witness_SendAppendsEncodedFrame : State.reset.seq = .idle ∧ (zeros 254).length ≤ 254 ∧ (zeros 0).length ≤ 254 := by
  simp [State.reset]

theorem witness_CommandFramesWriteTheirFrames :
    (st .idle 0x86#8 []).seq = .idle ∧ (zeros 254).length ≤ 254 ∧ (zeros 0).length ≤ 254 := by simp [st]

theorem witness_OversizedCommandFramesWriteNothing : (st .idle 0x86#8 []).seq = .idle ∧ 254 < (zeros 255).length := by simp [st]

theorem witness_BusyBlockHoldsOffRequests : (st .rxPay 0x86#8 []).seq ≠ .idle ∧ Instr.decTag ≠ .cancel := by decide

theorem witness_HeaderToCommandBytesWritten :
    (st .txHdr 0x86#8 []).seq = .txHdr ∧ (st .txRsvd 0x86#8 []).seq = .txRsvd ∧ (st .txLen 0x86#8 []).seq = .txLen ∧
    ({ st .txCmd 0x86#8 [] with txLen := 0x02#8 } : State).seq = .txCmd ∧ 1 < (0x02#8 : Byte).toNat ∧
    (st .txCmd 0x86#8 []).seq = .txCmd ∧ ({ st .txCmd 0x86#8 [] with txLen := 0x01#8 } : State).txLen.toNat ≤ 1 := by decide

/-- Index 0 of two payload bytes is not the last, index 1 is. -/
theorem witness_PayloadByteWrittenAndSummed :
    let s : State := { st .txPay 0x86#8 [] with txLen := 0x03#8, txBuf := [0x05#8, 0x06#8] }
    let t : State := { s with txIdx := 0x01#8 }
    s.seq = .txPay ∧ s.txBuf[s.txIdx.toNat]? = some 0x05#8 ∧ s.txIdx.toNat + 1 ≠ s.txLen.toNat - 1 ∧
    t.seq = .txPay ∧ t.txBuf[t.txIdx.toNat]? = some 0x06#8 ∧ t.txIdx.toNat + 1 = t.txLen.toNat - 1 := by decide

theorem witness_ChecksumByteEndsSend : (st .txCsum 0x86#8 []).seq = .txCsum := by decide

theorem witness_SendMovesIgnoreReceiveStream :
    (st .txHdr 0x86#8 [0x01#8]).seq.isTransmit = true ∧ ∃ t, codecStep (st .txHdr 0x86#8 [0x01#8]) = .next t :=
  ⟨by decide, _, rfl⟩

/-- The SEND of E4 before its payload byte, and the RECV of DV1 after it. -/
theorem witness_AccumulatorIsChecksumOfPrefix :
    let s : State :=
      { st .txPay 0x86#8 [] with txCmd := 0x86#8, txLen := 0x02#8, txAcc := 0x88#8, txBuf := [0x04#8] }
    let t : State :=
      { st .rxCsum 0x85#8 [] with
        rxCap := 16, rxLen := 0x02#8, rxCmd := 0x85#8, rxAcc := 0xD3#8, rxIdx := 0x01#8, rxBuf := [(0, 0x4C#8)] }
    s.Inv ∧ s.seq.isTransmit = true ∧ t.Inv ∧ t.seq = .rxCsum ∧ t.rxCmd = t.lastCmd :=
  ⟨⟨by decide, by decide, by decide, by decide⟩, by decide, ⟨by decide, by decide, by decide, by decide⟩, by decide, by decide⟩

theorem witness_RecvWithoutCommandEndsNoCommand : State.reset.seq = .idle ∧ State.reset.lastValid = false := by decide

theorem witness_RecvStartsReception :
    (st .idle 0x86#8 []).seq = .idle ∧ (st .idle 0x86#8 []).lastValid = true ∧ (st .idle 0x86#8 []).settlePending = false ∧
    ({ st .idle 0x86#8 [] with settlePending := true } : State).settlePending = true := by decide

theorem witness_SettleWaitEndedByTimer :
    ({ st .rxSettle 0x86#8 [] with settlePending := true } : State).settlePending = true ∧
    (st .rxSettle 0x86#8 []).seq = .rxSettle ∧ (st .rxSettle 0x86#8 []).settlePending = false ∧
    ({ st .txCmd 0x86#8 [] with schedule := [.timer] } : State).schedule = .timer :: [] := by decide

theorem witness_HuntDiscardsUntilHeader :
    (st .rxHunt 0x86#8 [0xFF#8]).seq = .rxHunt ∧ (st .rxHunt 0x86#8 [0xFF#8]).rxs = 0xFF#8 :: [] ∧
    (st .rxHunt 0x86#8 [0xFE#8]).seq = .rxHunt ∧ (st .rxHunt 0x86#8 [0xFE#8]).rxs = 0xFE#8 :: [] ∧ 0xFE#8 ≠ 0xFF#8 := by
  decide

/-- The offending byte may be a header. -/
theorem witness_ReservedByteMustBeZero :
    (st .rxRsvd 0x86#8 [0x00#8]).seq = .rxRsvd ∧ (st .rxRsvd 0x86#8 [0x00#8]).rxs = 0x00#8 :: [] ∧
    (st .rxRsvd 0x86#8 [0xFF#8]).rxs = 0xFF#8 :: [] ∧
    (0xFF#8 : Byte) ≠ 0x00#8 := by decide

/-- The capacity's two sides, at both ends of the length byte. -/
theorem witness_LengthByteCheckedAgainstCapacity :
    (st .rxLen 0x86#8 [0x00#8]).seq = .rxLen ∧ (st .rxLen 0x86#8 [0x00#8]).rxs = 0x00#8 :: [] ∧
    ({ st .rxLen 0x86#8 [0xFF#8] with rxCap := 253 } : State).rxCap < (0xFF#8 : Byte).toNat - 1 ∧
    (0xFF#8 : Byte).toNat - 1 ≤ ({ st .rxLen 0x86#8 [0xFF#8] with rxCap := 254 } : State).rxCap ∧
    (0x01#8 : Byte).toNat - 1 ≤ (st .rxLen 0x86#8 [0x01#8]).rxCap ∧ (0x01#8 : Byte) ≠ 0x00#8 := by decide

theorem witness_EchoComparedAndHeld :
    (st .rxCmd 0x86#8 [0x85#8]).seq = .rxCmd ∧ (st .rxCmd 0x86#8 [0x85#8]).rxs = 0x85#8 :: [] ∧
    1 < ({ st .rxCmd 0x86#8 [0x85#8] with rxLen := 0x02#8 } : State).rxLen.toNat ∧
    ({ st .rxCmd 0x86#8 [0x85#8] with rxLen := 0x01#8 } : State).rxLen.toNat ≤ 1 := by decide

/-- The last cell of the smallest and of the largest buffer; an echo that matched and one that did not. -/
theorem witness_PayloadByteStoredUnlessMismatched :
    let s : State := { st .rxPay 0x86#8 [0x07#8] with rxCap := 1, rxLen := 0x02#8 }
    let t : State := { st .rxPay 0x86#8 [0x07#8] with rxCap := 254, rxIdx := 0xFD#8, rxLen := 0xFF#8, rxMismatch := true }
    s.seq = .rxPay ∧ s.rxs = 0x07#8 :: [] ∧ s.rxIdx.toNat < s.rxCap ∧ s.rxMismatch = false ∧
    t.seq = .rxPay ∧ t.rxs = 0x07#8 :: [] ∧ t.rxIdx.toNat < t.rxCap ∧ t.rxMismatch = true := by decide

theorem witness_ChecksumByteDecidesOutcome :
    let s : State := { st .rxCsum 0x86#8 [0x87#8] with rxAcc := 0x87#8 }
    let t : State := { s with rxMismatch := true }
    s.seq = .rxCsum ∧ s.rxs = 0x87#8 :: [] ∧ s.rxMismatch = false ∧ 0x87#8 = s.rxAcc ∧ t.rxMismatch = true ∧
    (st .rxCsum 0x86#8 [0x87#8]).rxMismatch = false ∧ 0x87#8 ≠ (st .rxCsum 0x86#8 [0x87#8]).rxAcc := by decide

theorem witness_EmptyStreamLeavesBlockWaiting : ∀ q ∈ [Seq.rxHunt, .rxRsvd, .rxLen, .rxCmd, .rxPay, .rxCsum],
    (st q 0x86#8 []).seq = q ∧ (st q 0x86#8 []).rxs = [] := by decide

theorem witness_CancelEndsOnlyAReceive :
    (st .rxSettle 0x86#8 []).seq ∈ [Seq.rxSettle, .rxHunt, .rxRsvd, .rxLen, .rxCmd, .rxPay, .rxCsum] ∧
    (st .txCsum 0x86#8 []).seq ∈ [Seq.idle, .txHdr, .txRsvd, .txLen, .txCmd, .txPay, .txCsum] := by decide

theorem witness_ByteAndCancelInEitherOrder :
    let s : State := { st .rxLen 0x86#8 [0x02#8] with hostQueue := [.present (encode .cancel)], schedule := [.host, .codec] }
    s.seq.isReceive = true ∧ s.rxs ≠ [] ∧ s.schedule = .host :: [.codec] ∧ s.hostQueue = .present (encode .cancel) :: [] ∧
    ({ st .txHdr 0x86#8 [] with schedule := [.codec] } : State).schedule = .codec :: [] ∧
    (st .txHdr 0x86#8 []).schedule = [] ∧ (st .txHdr 0x86#8 []).seq.isTransmit = true ∧
    (st .rxHunt 0x86#8 [0x00#8]).seq.readsByte = true ∧ (st .rxHunt 0x86#8 [0x00#8]).rxs ≠ [] ∧
    (st .rxSettle 0x86#8 []).settlePending = false := by decide

theorem witness_SequencerAgreesWithDecode :
    let s := st .rxHunt 0x86#8 [0xFF#8, 0x00#8, 0x01#8, 0x86#8, 0x87#8]
    s.seq = .rxHunt ∧ s.rxBuf = [] ∧ s.rxReady = false := by decide

theorem witness_ArrivalCommutesWithCodecMove :
    (st .rxHunt 0x86#8 [0xFF#8]).rxs ≠ [] ∧ ∃ t, codecStep (st .rxHunt 0x86#8 [0xFF#8]) = .next t := ⟨by decide, _, rfl⟩

theorem witness_DecodeEncodeRoundTrip : (zeros 254).length ≤ 254 ∧ (zeros 0).length ≤ 0 := by simp

/-- A new length byte for each clause, with one payload byte and capacity 1: 2 is the old one, 1 and 0 smaller, 3 too large. -/
theorem witness_SingleByteCorruption :
    [0x82#8].length ≤ 254 ∧ [0x82#8].length ≤ 1 ∧ (0x01#8 : Byte) ≠ 0x00#8 ∧ 1 + 1 < (0x03#8 : Byte).toNat ∧
    (0x01#8 : Byte) ≠ BitVec.ofNat 8 ([0x82#8].length + 1) ∧ (0x01#8 : Byte).toNat ≤ 1 + 1 ∧ (0x80#8 : Byte) ≠ 0x81#8 ∧
    [(0x82#8 : Byte)][0]? = some 0x82#8 ∧ (0x83#8 : Byte) ≠ 0x82#8 ∧ 0x04#8 ≠ checksum (BitVec.ofNat 8 2) 0x81#8 [0x82#8] := by
  decide

theorem witness_ResyncOverGarbage :
    (0xFF#8 : Byte) ∉ [0x00#8, 0x7F#8, 0xFE#8] ∧ (zeros 254).length ≤ 254 ∧ (0xFF#8 : Byte) ≠ 0x00#8 :=
  ⟨by decide, by simp, by decide⟩

theorem witness_WrongEchoNeverAccepted :
    (0xFF#8 : Byte) ∉ [0x00#8, 0x7F#8] ∧ (0x02#8 : Byte) ≠ 0x00#8 ∧ (0x02#8 : Byte).toNat - 1 ≤ 1 ∧ (0x85#8 : Byte) ≠ 0x86#8 ∧
    decodeFrame 0x80#8 0 [0xFF#8, 0x00#8, 0x01#8, 0x80#8, 0x81#8] = .ok 0x80#8 [] 5 ∧ 0 + 1 < (0x02#8 : Byte).toNat := by decide

theorem witness_BytesConsumedByOutcome :
    let bytes : List Byte := [0x12#8, 0xFF#8, 0x00#8, 0x02#8, 0x86#8]
    1 = (bytes.takeWhile fun b => decide (b ≠ 0xFF#8)).length ∧ 2 = (bytes.getD (1 + 2) 0x00#8).toNat := by decide

theorem witness_ErrorInReceptionKeepsSession :
    (∃ t, codecStep (st .rxRsvd 0x86#8 [0x01#8]) = .next t ∧ t.reports = [] ++ [.error .framingError]) ∧
    (∃ t, exec .cancel (st .rxSettle 0x86#8 []) = .next t ∧ t.reports = [] ++ [.error .timeout]) ∧
    (∃ t, exec (.recv 4) State.reset = .next t ∧ t.reports = [] ++ [.error .noCommand]) ∧ sentCommand (.recv 4) = none :=
  ⟨⟨_, rfl, rfl⟩, ⟨_, rfl, rfl⟩, ⟨_, rfl, rfl⟩, rfl⟩

theorem witness_BlockResetAbandonsOperation :
    let s : State := { st .rxPay 0x86#8 [0x01#8] with schedule := [.host], hostQueue := [.reset] }
    s.schedule = .host :: [] ∧ s.hostQueue = .reset :: [] := by decide

theorem witness_TransmitStreamOnlyGrows :
    ∃ t, step { st .txHdr 0x86#8 [] with schedule := [.codec] } = .next t ∧ t.txs = [0xFF#8] := ⟨_, rfl, rfl⟩

theorem witness_ReceiveStreamIsFifo :
    (∃ t, step { st .rxHunt 0x86#8 [0x01#8] with schedule := [.codec] } = .next t ∧ t.rxs = []) ∧
    (let s : State := { st .txPay 0x86#8 [0x01#8] with schedule := [.transport], lineIn := [0x02#8] }
     s.schedule = .transport :: [] ∧ s.lineIn = 0x02#8 :: []) :=
  ⟨⟨_, rfl, rfl⟩, rfl, rfl⟩

theorem witness_RecordWrittenBySendOnly :
    (∃ t, step { State.reset with schedule := [.host], hostQueue := [.present (encode (.halt []))] } = .next t ∧
      t.lastCmd ≠ State.reset.lastCmd) ∧
    (∃ t, step { st .idle 0x86#8 [] with schedule := [.host], hostQueue := [.reset] } = .next t ∧
      (st .idle 0x86#8 []).lastValid = true ∧ t.lastValid = false) :=
  ⟨⟨_, rfl, by decide⟩, ⟨_, rfl, rfl, rfl⟩⟩

theorem witness_NoByteReadDuringSettle :
    let s : State := { st .rxHunt 0x86#8 [0x01#8] with schedule := [.codec] }
    s.Inv ∧ ∃ t, step s = .next t ∧ s.rxs = 0x01#8 :: t.rxs := ⟨⟨by decide, by decide, by decide, by decide⟩, _, rfl, rfl⟩

theorem witness_DecTagResult :
    (holding 0x83#8 []).seq = .idle ∧ (holding 0x83#8 []).holdsPayload [] ∧
    (holding 0x83#8 [0x4E#8]).holdsPayload [0x4E#8] ∧
    (holding 0x83#8 [0x02#8, 0x11#8]).holdsPayload [0x02#8, 0x11#8] := by decide

theorem witness_DecFwStringResult : (holding 0x81#8 [0x31#8, 0x2E#8]).seq = .idle ∧
    (holding 0x81#8 [0x31#8, 0x2E#8]).holdsPayload [0x31#8, 0x2E#8] := by decide

theorem witness_DecFwU32Result : (holding 0x81#8 [0x31#8, 0x2E#8, 0x30#8, 0x00#8]).seq = .idle ∧
    (holding 0x81#8 [0x31#8, 0x2E#8, 0x30#8, 0x00#8]).holdsPayload [0x31#8, 0x2E#8, 0x30#8, 0x00#8] := by decide

theorem witness_DecAuthResult : (holding 0x85#8 [0x55#8]).seq = .idle ∧ (holding 0x85#8 [0x55#8]).holdsPayload [0x55#8] ∧
    (holding 0x85#8 []).holdsPayload [] ∧ (zeros 2).length ≠ 1 ∧ (holding 0x85#8 (zeros 2)).holdsPayload (zeros 2) := by decide

theorem witness_DecReadBlockResult : (holding 0x86#8 [0x4E#8]).seq = .idle ∧ (holding 0x86#8 [0x4E#8]).holdsPayload [0x4E#8] ∧
    (holding 0x86#8 (0x04#8 :: zeros 16)).holdsPayload (0x04#8 :: zeros 16) ∧ (zeros 16).length = 16 ∧
    (holding 0x86#8 (zeros 18)).holdsPayload (zeros 18) ∧ (zeros 18).length ≠ 17 := by decide

theorem witness_DecReadValueResult : (holding 0x87#8 [0x55#8]).seq = .idle ∧ (holding 0x87#8 [0x55#8]).holdsPayload [0x55#8] ∧
    (holding 0x87#8 (zeros 4)).holdsPayload (zeros 4) ∧ (zeros 4).length ≠ 1 := by decide

/-- The largest positive and the most negative pattern. -/
theorem witness_ValueReassembledLeastSignificantFirst :
    0xFF + 0xFF * 2 ^ 8 + 0xFF * 2 ^ 16 + 0x7F * 2 ^ 24 < 2 ^ 31 ∧
    2 ^ 31 ≤ 0 + 0 * 2 ^ 8 + 0 * 2 ^ 16 + 0x80 * 2 ^ 24 := by decide

theorem witness_DecoderWithoutPayloadFaults :
    let t : State := { holding 0x83#8 [0x4E#8] with resCode := .sent }
    State.reset.seq = .idle ∧ State.reset.rxReady = false ∧ t.seq = .idle ∧ t.resCode ≠ .ok := by decide

/-- Every clause holds of all operands; this is one at the edge of what an image holds, and one past it. -/
theorem witness_TagReadFollowedByResetByPolicy :
    ((zeros 511).take 511).length = 511 ∧ ((zeros 512).take 511).length = 511 ∧ min 255 255 = 255 ∧ min 256 255 = 255 := by
  simp

theorem witness_StepRunsPresentedInstruction :
    let s : State := { st .idle 0x86#8 [] with schedule := [.host], hostQueue := [.present [0x04#8]] }
    let t : State := { s with seq := .rxHunt }
    s.nextAgent = .host ∧ s.hostQueue = .present [0x04#8] :: [] ∧ decode [0x04#8] = .ok (.decTag, []) ∧ s.seq = .idle ∧
    t.nextAgent = .host ∧ Instr.decTag ≠ .cancel ∧ t.seq ≠ .idle ∧
    decode [0x00#8] = .error .noOperation ∧ decode [0x1C#8] = .error (.unassignedSelector 0x1C#8) ∧
    DecodeError.unassignedSelector 0x1C#8 ≠ .noOperation ∧
    ({ st .idle 0x86#8 [] with schedule := [.host] } : State).nextAgent = .host ∧ (st .idle 0x86#8 []).hostQueue = [] := by decide

theorem witness_FetchedTableWordRuns : decodeTableWord 8 0b11 = some .cancel ∧ State.reset.seq = .idle := ⟨rfl, rfl⟩

theorem witness_ExchangeStepOnlyAfterSuccess :
    let s : State := { st .idle 0x86#8 [] with schedule := [.host], hostQueue := [.presentIfOk [0x02#8, 0x11#8]] }
    let t : State := { s with resCode := .oversizedPayload }
    let u : State := { s with seq := .txPay }
    s.nextAgent = .host ∧ s.seq = .idle ∧ s.resCode = .sent ∧ decode [0x02#8, 0x11#8] = .ok (.recv 17, []) ∧
    t.nextAgent = .host ∧ t.resCode ≠ .ok ∧ t.resCode ≠ .sent ∧ u.nextAgent = .host ∧ u.seq ≠ .idle ∧
    decode [0x00#8] = .error .noOperation ∧ decode [] = .error .empty ∧ DecodeError.empty ≠ .noOperation := by decide

theorem witness_InvariantKeptByEveryStep :
    let s : State := { st .rxHunt 0x86#8 [0xFF#8] with schedule := [.codec] }
    s.Inv ∧ ∃ t, step s = .next t := ⟨⟨by decide, by decide, by decide, by decide⟩, _, rfl⟩

theorem witness_OnlyFaultIsDecoderWithoutPayload :
    let s : State := { State.reset with schedule := [.host], hostQueue := [.present [0x04#8]] }
    s.Inv ∧ step s = .fault .noPayload := ⟨⟨by decide, by decide, by decide, by decide⟩, rfl⟩

theorem witness_PayloadReadableWhenReady :
    (holding 0x83#8 [0x4E#8]).Inv ∧ (holding 0x83#8 [0x4E#8]).seq.isReceive = false ∧
    (holding 0x83#8 [0x4E#8]).rxReady = true ∧
    (st .idle 0x83#8 []).Inv ∧ (st .idle 0x83#8 []).seq.isReceive = false ∧ (st .idle 0x83#8 []).resCode ≠ .ok :=
  ⟨⟨by decide, by decide, by decide, by decide⟩, rfl, rfl, ⟨by decide, by decide, by decide, by decide⟩, rfl, by decide⟩

theorem witness_BufferStaysCanonical :
    let s : State := { st .rxPay 0x86#8 [0x07#8] with rxCap := 4, rxLen := 0x05#8, rxIdx := 0x01#8, rxBuf := [(0, 0x01#8)] }
    s.rxBuf.wf = true ∧ ∃ t, step s = .next t ∧ t.rxBuf = [(0, 0x01#8), (1, 0x07#8)] := ⟨by decide, _, rfl, rfl⟩

theorem witness_SettleIntervalEventuallyElapses :
    let s : State := { st .rxSettle 0x86#8 [] with settlePending := true }
    s.schedule = [] ∧ s.seq = .rxSettle ∧ s.settlePending = true := by decide

end Sys2Proof.Tests
end

section
/-! PROOFS. What each agent's turn, and so a step, can do: one inductive per agent, one constructor per transition, and the
inversion lemma that ties it to the model. -/

namespace Sys2Proof.Machine

/-! ### The codec -/

/-- The moves of a SEND (R95 to R100): from `s` it writes `b` and leaves the block, but for `TXS`, as `t`. -/
inductive TransmitMove (s : State) : Byte → State → Prop
  | hdr (hq : s.seq = .txHdr) : TransmitMove s header (s.goTo .txRsvd)
  | rsvd (hq : s.seq = .txRsvd) : TransmitMove s reservedByte (s.goTo .txLen)
  | len (hq : s.seq = .txLen) : TransmitMove s s.txLen (s.goTo .txCmd)
  | cmd (hq : s.seq = .txCmd) :
      TransmitMove s s.txCmd (s.goTo (if 0 < s.txLen.toNat - 1 then .txPay else .txCsum))
  | pay {b : Byte} (hq : s.seq = .txPay) (hb : s.txBuf[s.txIdx.toNat]? = some b) :
      TransmitMove s b { s with
        txAcc := s.txAcc + b
        txIdx := s.txIdx + 1#8
        seq := if s.txIdx.toNat + 1 = s.txLen.toNat - 1 then .txCsum else .txPay }
  | csum (hq : s.seq = .txCsum) : TransmitMove s s.txAcc { s.endSent with settlePending := true }

/-- The moves of a RECV that read a byte (R106 to R112): with `b` gone from `RXS` already, `s` becomes `t`. An error may come
after the length byte was latched (R108). -/
inductive ReceiveMove (s : State) (b : Byte) : State → Prop
  | hunt (hq : s.seq = .rxHunt) : ReceiveMove s b (s.goTo (if b = header then .rxRsvd else .rxHunt))
  | rsvd (hq : s.seq = .rxRsvd) : ReceiveMove s b (s.goTo .rxLen)
  | len (hq : s.seq = .rxLen) (hb : b.toNat ≠ 0) (hcap : b.toNat - 1 ≤ s.rxCap) :
      ReceiveMove s b (({ s with rxLen := b } : State).goTo .rxCmd)
  | cmd (hq : s.seq = .rxCmd) :
      ReceiveMove s b { s with
        rxCmd := b
        rxMismatch := echoMismatch b s.lastCmd
        rxAcc := s.rxLen + b
        rxIdx := 0x00#8
        seq := if 0 < s.rxLen.toNat - 1 then .rxPay else .rxCsum }
  | pay (hq : s.seq = .rxPay) :
      ReceiveMove s b { s with
        rxAcc := s.rxAcc + b
        rxBuf := if s.rxMismatch then s.rxBuf else Memory.write s.rxBuf s.rxIdx.toNat b
        rxIdx := s.rxIdx + 1#8
        seq := if s.rxIdx.toNat + 1 = s.rxLen.toNat - 1 then .rxCsum else .rxPay }
  | ok (hq : s.seq = .rxCsum) (hm : s.rxMismatch = false) : ReceiveMove s b s.endOk
  | error (hq : s.seq.readsByte = true) (len : Byte) (e : ResCode) :
      ReceiveMove s b (({ s with rxLen := len } : State).raise e)

/-- What a move of the codec does: nothing, the end of the settle wait (R103), a byte written, or the oldest byte read. -/
inductive CodecMove (s : State) : State → Prop
  | wait : CodecMove s s
  | settled (hq : s.seq = .rxSettle) (hp : s.settlePending = false) : CodecMove s (s.goTo .rxHunt)
  | transmit {b : Byte} {u : State} (hu : TransmitMove s b u) : CodecMove s (u.txWrite b)
  | receive {b : Byte} {rest : List Byte} {u : State} (hr : s.rxs = b :: rest)
      (hu : ReceiveMove { s with rxs := rest } b u) : CodecMove s u

/-- A state that reads waits, or makes the receive move its continuation stands for. -/
theorem CodecMove.of_rxRead {s t : State} {k : Byte → State → Result} (h : s.rxRead k = .next t)
    (hk : ∀ (b : Byte) (u : State), u.seq = s.seq → k b u = .next t → ReceiveMove u b t) : CodecMove s t := by
  rcases s.rxRead_cases k with ⟨-, e⟩ | ⟨b, rest, hr, e⟩
  · cases e.symm.trans h; exact .wait
  · exact .receive hr (hk b _ rfl (e.symm.trans h))

theorem moveTxPay_next {s t : State} (hq : s.seq = .txPay) (h : moveTxPay s = .next t) : CodecMove s t := by
  unfold moveTxPay at h
  split at h <;> cases h
  exact .transmit (.pay hq ‹_›)

theorem moveRxSettle_next {s t : State} (hq : s.seq = .rxSettle) (h : moveRxSettle s = .next t) : CodecMove s t := by
  unfold moveRxSettle at h
  split at h <;> cases h
  · exact .wait
  · exact .settled hq (eq_false_of_ne_true ‹_›)

theorem moveRxRsvd_next {s t : State} (hq : s.seq = .rxRsvd) (h : moveRxRsvd s = .next t) : CodecMove s t := by
  refine .of_rxRead h fun b u hu e => ?_
  have hq : u.seq = .rxRsvd := hu.trans hq
  split at e <;> cases e
  · exact .rsvd hq
  · exact .error (hq ▸ rfl) u.rxLen _

theorem moveRxLen_next {s t : State} (hq : s.seq = .rxLen) (h : moveRxLen s = .next t) : CodecMove s t := by
  refine .of_rxRead h fun b u hu e => ?_
  have hq : u.seq = .rxLen := hu.trans hq
  split at e
  · cases e; exact .error (hq ▸ rfl) b _
  · split at e <;> cases e
    · exact .error (hq ▸ rfl) b _
    · exact .len hq ‹_› (by simpa [exceedsCapacity] using ‹¬ exceedsCapacity b u.rxCap = true›)

theorem moveRxPay_next {s t : State} (hq : s.seq = .rxPay) (h : moveRxPay s = .next t) : CodecMove s t := by
  refine .of_rxRead h fun b u hu e => ?_
  split at e <;> cases e
  exact .pay (hu.trans hq)

theorem moveRxCsum_next {s t : State} (hq : s.seq = .rxCsum) (h : moveRxCsum s = .next t) : CodecMove s t := by
  refine .of_rxRead h fun b u hu e => ?_
  have hq : u.seq = .rxCsum := hu.trans hq
  split at e
  · cases e; exact .error (hq ▸ rfl) u.rxLen _
  · split at e <;> cases e
    · exact .error (hq ▸ rfl) u.rxLen _
    · exact .ok hq (eq_false_of_ne_true ‹_›)

/-- Everything a move of the codec can do. -/
theorem codecStep_next {s t : State} (h : codecStep s = .next t) : CodecMove s t := by
  unfold codecStep at h
  split at h
  case h_1 => cases h; exact .wait
  case h_2 hq => cases h; exact .transmit (.hdr hq)
  case h_3 hq => cases h; exact .transmit (.rsvd hq)
  case h_4 hq => cases h; exact .transmit (.len hq)
  case h_5 hq => cases h; exact .transmit (.cmd hq)
  case h_6 hq => exact moveTxPay_next hq h
  case h_7 hq => cases h; exact .transmit (.csum hq)
  case h_8 hq => exact moveRxSettle_next hq h
  case h_9 hq => exact .of_rxRead h fun b u hu e => by cases e; exact .hunt (hu.trans hq)
  case h_10 hq => exact moveRxRsvd_next hq h
  case h_11 hq => exact moveRxLen_next hq h
  case h_12 hq => exact .of_rxRead h fun b u hu e => by cases e; exact .cmd (hu.trans hq)
  case h_13 hq => exact moveRxPay_next hq h
  case h_14 hq => exact moveRxCsum_next hq h

/-! ### The host -/

/-- The host's next move presents `image`, whatever operation ended before it. -/
def State.presents (s : State) (image : List Byte) (queue : List HostMove) : Prop :=
  s.hostQueue = .present image :: queue ∨ s.hostQueue = .presentIfOk image :: queue

/-- What a turn of the host does: nothing but to its queue, the block's reset (R230), a SEND or RECV accepted in `IDLE` (R91,
R101), a CANCEL that ends a RECV (R113), or a value handed over (R170). -/
inductive HostMade (s : State) : State → Prop
  | queued (queue : List HostMove) : HostMade s { s with hostQueue := queue }
  | reset {queue : List HostMove} (hq : s.hostQueue = .reset :: queue) :
      HostMade s ({ s with hostQueue := queue } : State).blockReset
  | sent {image rest : List Byte} {queue : List HostMove} {i : Instr} {cmd : Byte} {p : List Byte}
      (hs : s.seq = .idle) (hp : s.presents image queue) (hd : decode image = .ok (i, rest))
      (hi : sentCommand i = some (cmd, p)) :
      HostMade s (({ s with hostQueue := queue } : State).acceptSend cmd p)
  | received (queue : List HostMove) (cap : Nat) (hs : s.seq = .idle) :
      HostMade s (({ s with hostQueue := queue } : State).acceptRecv cap)
  | cancelled (queue : List HostMove) :
      HostMade s (({ s with hostQueue := queue } : State).raise .timeout)
  | decoded (queue : List HostMove) (r : Report) :
      HostMade s (({ s with hostQueue := queue } : State).report r)

/-- Everything running a presented instruction can do. -/
theorem exec_fetched_next {s t : State} {i : Instr} {image rest : List Byte} {queue : List HostMove}
    (hp : s.presents image queue) (hd : decode image = .ok (i, rest)) (h : exec i (s.fetched i queue) = .next t) :
    HostMade s t := by
  by_cases htaken : i = .cancel ∨ s.seq = .idle
  · rw [State.fetched_taken queue htaken] at h
    rcases exec_cases i { s with hostQueue := queue } with
      ⟨hs, hc, -⟩ | ⟨hs, cmd, p, hi, e⟩ | ⟨hs, cap, -, e⟩ | ⟨-, e⟩ | ⟨-, -, f, e⟩
    · exact absurd htaken (not_or.2 ⟨hc, hs⟩)
    · cases e.symm.trans h; exact .sent hs hp hd hi
    · cases e.symm.trans h; exact .received queue cap hs
    · cases e.symm.trans h
      rcases State.acceptCancel_cases { s with hostQueue := queue } with ⟨-, e⟩ | ⟨-, e⟩ <;> rw [e]
      · exact .cancelled queue
      · exact .queued queue
    · rw [e] at h
      rcases applyDecoder_cases f { s with hostQueue := queue } with ⟨-, e⟩ | ⟨-, _, -, e⟩ | ⟨-, _, -, e⟩ <;>
        cases e.symm.trans h
      · exact .queued queue
      · exact .decoded queue _
  · obtain ⟨hc, hs⟩ := not_or.1 htaken
    rw [State.fetched_held queue hc hs] at h
    have hheld : exec i s = .next s := by
      rcases exec_cases i s with ⟨-, -, e⟩ | ⟨hi, -⟩ | ⟨hi, -⟩ | ⟨hi, -⟩ | ⟨hi, -⟩
      · exact e
      all_goals contradiction
    cases hheld.symm.trans h
    exact .queued s.hostQueue

theorem presentRequest_next {s t : State} {image : List Byte} {queue : List HostMove} (hp : s.presents image queue)
    (h : presentRequest image queue s = .next t) : HostMade s t := by
  unfold presentRequest at h
  split at h
  · exact exec_fetched_next hp ‹_› h
  · cases h; exact .queued queue
  · cases h

/-- Everything a turn of the host can do. -/
theorem hostTurn_next {s t : State} (h : hostTurn s = .next t) : HostMade s t := by
  unfold hostTurn at h
  split at h
  · cases h; exact .queued s.hostQueue
  · cases h; exact .reset ‹_›
  · exact presentRequest_next (.inl ‹_›) h
  · split at h
    · cases h; exact .queued s.hostQueue
    · split at h
      · exact presentRequest_next (.inr ‹_›) h
      · cases h; exact .queued _

/-! ### The step -/

/-- What a step does: the turn of the agent whose turn it is, taken off the schedule. -/
inductive StepMade (s : State) : State → Prop
  | host {t : State} (ha : s.nextAgent = .host) (h : HostMade s.tick t) : StepMade s t
  | codec {t : State} (ha : s.nextAgent = .codec) (h : CodecMove s.tick t) : StepMade s t
  | transport (ha : s.nextAgent = .transport) : StepMade s s.tick.deliver
  | timer (ha : s.nextAgent = .timer) : StepMade s s.tick.settleElapsed

/-- Everything a step can do. -/
theorem step_next {s t : State} (h : step s = .next t) : StepMade s t := by
  unfold step at h
  cases ha : s.nextAgent <;> rw [ha] at h
  case host => exact .host ha (hostTurn_next h)
  case codec => exact .codec ha (codecStep_next h)
  case transport => cases h; exact .transport ha
  case timer => cases h; exact .timer ha

end Sys2Proof.Machine
end

section
/-! PROOFS. What a step leaves unchanged of the streams, of the correlator's record and of the receive buffer. -/

namespace Sys2Proof.Machine

/-! ### Frames -/

/-- The streams and the bytes to come are the same. -/
structure SameStreams (s t : State) : Prop where
  txs : t.txs = s.txs
  rxs : t.rxs = s.rxs
  lineIn : t.lineIn = s.lineIn

/-- The correlator's record is the same (R10, R11). -/
structure SameRecord (s t : State) : Prop where
  lastCmd : t.lastCmd = s.lastCmd
  lastValid : t.lastValid = s.lastValid

/-- Whatever is claimed of a step that writes the record holds of one that does not. -/
theorem SameRecord.unwritten {s t : State} {P Q : Prop} (h : SameRecord s t) :
    (t.lastCmd ≠ s.lastCmd → P) ∧ (s.lastValid = true → t.lastValid = false → Q) :=
  ⟨fun hc => absurd h.lastCmd hc, fun hs ht => by simp [h.lastValid, hs] at ht⟩

/-- The buffer is left, emptied, or written at one cell. -/
def BufferChange (m m' : Memory) : Prop := m' = m ∨ m' = [] ∨ ∃ a v, m' = Memory.write m a v

theorem BufferChange.wf {m m' : Memory} (h : BufferChange m m') (hm : m.wf = true) : m'.wf = true := by
  obtain rfl | rfl | ⟨a, v, rfl⟩ := h
  · exact hm
  · exact Memory.wf_nil
  · exact Memory.wf_write a v hm

section
variable {s t u : State} {b : Byte}

theorem TransmitMove.isTransmit (h : TransmitMove s b u) : s.seq.isTransmit = true := by
  cases h with
  | hdr hq | rsvd hq | len hq | cmd hq | pay hq | csum hq => rw [hq]; rfl

/-- A move of a SEND changes the streams only by the byte it writes, which is not in `u` yet. -/
theorem TransmitMove.sameStreams (h : TransmitMove s b u) : SameStreams s u := by
  cases h <;> exact ⟨rfl, rfl, rfl⟩

theorem TransmitMove.sameRecord (h : TransmitMove s b u) : SameRecord s u := by
  cases h <;> exact ⟨rfl, rfl⟩

theorem TransmitMove.bufferChange (h : TransmitMove s b u) : BufferChange s.rxBuf u.rxBuf := by
  cases h with
  | csum => exact .inr (.inl rfl)
  | _ => exact .inl rfl

theorem ReceiveMove.readsByte (h : ReceiveMove s b t) : s.seq.readsByte = true := by
  cases h with
  | hunt hq | rsvd hq | len hq | cmd hq | pay hq | ok hq => rw [hq]; rfl
  | error hq => exact hq

/-- A move of a RECV changes the streams only by the byte it read, which is gone from `s` already. -/
theorem ReceiveMove.sameStreams (h : ReceiveMove s b t) : SameStreams s t := by
  cases h <;> exact ⟨rfl, rfl, rfl⟩

theorem ReceiveMove.sameRecord (h : ReceiveMove s b t) : SameRecord s t := by
  cases h <;> exact ⟨rfl, rfl⟩

theorem ReceiveMove.bufferChange (h : ReceiveMove s b t) : BufferChange s.rxBuf t.rxBuf := by
  cases h with
  | pay =>
    cases hm : s.rxMismatch
    · exact .inr (.inr ⟨_, _, rfl⟩)
    · exact .inl rfl
  | error => exact .inr (.inl rfl)
  | _ => exact .inl rfl

theorem CodecMove.lineIn (h : CodecMove s t) : t.lineIn = s.lineIn := by
  cases h with
  | wait | settled => rfl
  | transmit hu => exact hu.sameStreams.lineIn
  | receive _ hu => exact hu.sameStreams.lineIn

theorem CodecMove.sameRecord (h : CodecMove s t) : SameRecord s t := by
  cases h with
  | wait | settled => exact ⟨rfl, rfl⟩
  | transmit hu => exact ⟨hu.sameRecord.lastCmd, hu.sameRecord.lastValid⟩
  | receive _ hu => exact ⟨hu.sameRecord.lastCmd, hu.sameRecord.lastValid⟩

theorem CodecMove.bufferChange (h : CodecMove s t) : BufferChange s.rxBuf t.rxBuf := by
  cases h with
  | wait | settled => exact .inl rfl
  | transmit hu => exact hu.bufferChange
  | receive _ hu => exact hu.bufferChange

end

theorem State.acceptSend_sameStreams (s : State) (cmd : Byte) (p : List Byte) : SameStreams s (s.acceptSend cmd p) := by
  rcases s.acceptSend_cases cmd p with ⟨-, e⟩ | ⟨-, e⟩ <;> rw [e] <;> exact ⟨rfl, rfl, rfl⟩

theorem State.acceptSend_record (s : State) (cmd : Byte) (p : List Byte) :
    (s.acceptSend cmd p).lastCmd = cmd ∧ (s.acceptSend cmd p).lastValid = true := by
  rcases s.acceptSend_cases cmd p with ⟨-, e⟩ | ⟨-, e⟩ <;> rw [e] <;> exact ⟨rfl, rfl⟩

/-- A SEND accepted leaves the buffer, or empties it when it is oversized. -/
theorem State.acceptSend_bufferChange (s : State) (cmd : Byte) (p : List Byte) :
    BufferChange s.rxBuf (s.acceptSend cmd p).rxBuf := by
  rcases s.acceptSend_cases cmd p with ⟨-, e⟩ | ⟨-, e⟩ <;> rw [e]
  · exact .inr (.inl rfl)
  · exact .inl rfl

theorem State.acceptRecv_sameStreams (s : State) (cap : Nat) : SameStreams s (s.acceptRecv cap) := by
  rcases s.acceptRecv_cases cap with ⟨-, e⟩ | ⟨-, e⟩ <;> rw [e] <;> exact ⟨rfl, rfl, rfl⟩

theorem State.acceptRecv_sameRecord (s : State) (cap : Nat) : SameRecord s (s.acceptRecv cap) := by
  rcases s.acceptRecv_cases cap with ⟨-, e⟩ | ⟨-, e⟩ <;> rw [e] <;> exact ⟨rfl, rfl⟩

/-- A RECV accepted empties the buffer, refused or started (R102, R211). -/
theorem State.acceptRecv_rxBuf (s : State) (cap : Nat) : (s.acceptRecv cap).rxBuf = [] := by
  rcases s.acceptRecv_cases cap with ⟨-, e⟩ | ⟨-, e⟩ <;> rw [e] <;> rfl

/-- No turn of the host touches a stream, not even the block's reset (R233). -/
theorem HostMade.sameStreams {s t : State} (h : HostMade s t) : SameStreams s t := by
  cases h with
  | @sent _ _ queue _ cmd p =>
    obtain ⟨htx, hrx, hline⟩ := ({ s with hostQueue := queue } : State).acceptSend_sameStreams cmd p
    exact ⟨htx, hrx, hline⟩
  | received queue cap =>
    obtain ⟨htx, hrx, hline⟩ := ({ s with hostQueue := queue } : State).acceptRecv_sameStreams cap
    exact ⟨htx, hrx, hline⟩
  | _ => exact ⟨rfl, rfl, rfl⟩

/-- A turn of the host leaves the record, unless it presents a SEND, whose command it becomes, or resets the block. -/
theorem HostMade.record {s t : State} (h : HostMade s t) :
    SameRecord s t ∨ (∃ queue, s.hostQueue = .reset :: queue) ∨
    (t.lastValid = true ∧ ∃ image queue i rest p, s.presents image queue ∧ decode image = .ok (i, rest) ∧
      sentCommand i = some (t.lastCmd, p)) := by
  cases h with
  | reset hq => exact .inr (.inl ⟨_, hq⟩)
  | @sent _ _ queue _ cmd p _ hp hd hi =>
    obtain ⟨hcmd, hvalid⟩ := ({ s with hostQueue := queue } : State).acceptSend_record cmd p
    exact .inr (.inr ⟨hvalid, _, _, _, _, _, hp, hd, by rw [hcmd]; exact hi⟩)
  | received queue cap =>
    obtain ⟨hcmd, hvalid⟩ := ({ s with hostQueue := queue } : State).acceptRecv_sameRecord cap
    exact .inl ⟨hcmd, hvalid⟩
  | _ => exact .inl ⟨rfl, rfl⟩

theorem HostMade.bufferChange {s t : State} (h : HostMade s t) : BufferChange s.rxBuf t.rxBuf := by
  cases h with
  | queued | decoded => exact .inl rfl
  | reset | cancelled => exact .inr (.inl rfl)
  | @sent _ _ queue _ cmd p => exact ({ s with hostQueue := queue } : State).acceptSend_bufferChange cmd p
  | received queue cap => exact .inr (.inl (State.acceptRecv_rxBuf _ cap))

theorem State.deliver_sameRecord (s : State) : SameRecord s s.deliver := by
  rcases s.deliver_cases with ⟨-, e⟩ | ⟨b, rest, -, e⟩ <;> rw [e] <;> exact ⟨rfl, rfl⟩

theorem State.deliver_txs (s : State) : s.deliver.txs = s.txs := by
  rcases s.deliver_cases with ⟨-, e⟩ | ⟨b, rest, -, e⟩ <;> rw [e]

theorem State.deliver_rxBuf (s : State) : s.deliver.rxBuf = s.rxBuf := by
  rcases s.deliver_cases with ⟨-, e⟩ | ⟨b, rest, -, e⟩ <;> rw [e]

theorem StepMade.bufferChange {s t : State} (h : StepMade s t) : BufferChange s.rxBuf t.rxBuf := by
  cases h with
  | host _ hm => exact hm.bufferChange
  | codec _ hm => exact hm.bufferChange
  | transport => exact .inl s.tick.deliver_rxBuf
  | timer => exact .inl rfl

/-! ### The obligations -/

/-- Settles O37: of all turns only a transmit move of the codec writes `TXS`. -/
theorem transmitStreamOnlyGrows : Obligations.TransmitStreamOnlyGrows := by
  intro s t h
  cases step_next h with
  | host _ hm => exact .inl hm.sameStreams.txs
  | codec ha hm =>
    cases hm with
    | wait | settled => exact .inl rfl
    | @transmit b u hu =>
      have htxs : u.txs = s.txs := hu.sameStreams.txs
      exact .inr ⟨ha, hu.isTransmit, b, by rw [State.txWrite_txs, htxs]⟩
    | receive _ hu => exact .inl hu.sameStreams.txs
  | transport => exact .inl s.tick.deliver_txs
  | timer => exact .inl rfl

/-- Settles O38: `RXS` loses its head by a receive move and gains a byte at its end by a delivery. -/
theorem receiveStreamIsFifo : Obligations.ReceiveStreamIsFifo := by
  refine ⟨fun s t h => ?_, fun s b line rest hsched hline => ?_⟩
  · cases step_next h with
    | host _ hm => exact .inl ⟨hm.sameStreams.rxs, hm.sameStreams.lineIn⟩
    | codec ha hm =>
      have hline : t.lineIn = s.lineIn := hm.lineIn
      cases hm with
      | wait | settled => exact .inl ⟨rfl, rfl⟩
      | transmit hu => exact .inl ⟨hu.sameStreams.rxs, hline⟩
      | @receive b rest _ hr hu =>
        have hrest : t.rxs = rest := hu.sameStreams.rxs
        exact .inr (.inl ⟨ha, hu.readsByte, hline, b, by rw [hrest]; exact hr⟩)
    | transport ha =>
      rcases s.tick.deliver_cases with ⟨-, e⟩ | ⟨b, rest, hline, e⟩ <;> rw [e]
      · exact .inl ⟨rfl, rfl⟩
      · exact .inr (.inr ⟨ha, b, hline, rfl⟩)
    | timer => exact .inl ⟨rfl, rfl⟩
  · have hagent : s.nextAgent = .transport := by simp [State.nextAgent, hsched]
    have hdeliver : step s = .next s.tick.deliver := by rw [step, hagent]; rfl
    rw [hdeliver, State.deliver, State.tick_lineIn, hline]
    simp [State.tick, hsched]

/-- Settles O39: a codec, transport or timer turn leaves the record, and a host turn writes it as `HostMade.record` says. -/
theorem recordWrittenBySendOnly : Obligations.RecordWrittenBySendOnly := by
  intro s t h
  cases step_next h with
  | host ha hm =>
    rcases hm.record with hr | ⟨queue, hq⟩ | ⟨hvalid, image, queue, i, rest, p, hp, hd, hi⟩
    · exact SameRecord.unwritten ⟨hr.lastCmd, hr.lastValid⟩
    · exact ⟨fun _ => ⟨ha, _, queue, hq, .inl rfl⟩, fun _ _ => ⟨ha, queue, hq⟩⟩
    · refine ⟨fun _ => ⟨ha, ?_⟩, fun _ ht => by simp [hvalid] at ht⟩
      rcases hp with hq | hq
      · exact ⟨_, queue, hq, .inr ⟨image, i, rest, p, .inl rfl, hd, hi⟩⟩
      · exact ⟨_, queue, hq, .inr ⟨image, i, rest, p, .inr rfl, hd, hi⟩⟩
  | codec _ hm => exact SameRecord.unwritten ⟨hm.sameRecord.lastCmd, hm.sameRecord.lastValid⟩
  | transport => exact SameRecord.unwritten ⟨s.tick.deliver_sameRecord.lastCmd, s.tick.deliver_sameRecord.lastValid⟩
  | timer => exact SameRecord.unwritten ⟨rfl, rfl⟩

/-- Settles O59: a step leaves the buffer, empties it or writes one cell, and each keeps the canonical form. -/
theorem bufferStaysCanonical : Obligations.BufferStaysCanonical :=
  fun _ _ hwf h => (step_next h).bufferChange.wf hwf

end Sys2Proof.Machine
end

section
/-! PROOFS. The invariant: every move of every agent keeps it. -/

namespace Sys2Proof.Machine

/-! ### How a state comes to meet the invariant -/

theorem Seq.isReceive_of_isTransmit {q : Seq} (h : q.isTransmit = true) : q.isReceive = false := by
  cases q <;> simp_all [isReceive, isTransmit]

theorem Seq.isTransmit_of_isReceive {q : Seq} (h : q.isReceive = true) : q.isTransmit = false := by
  cases q <;> simp_all [isReceive, isTransmit]

theorem Seq.isReceive_of_readsByte {q : Seq} (h : q.readsByte = true) : q.isReceive = true := by
  cases q <;> simp_all [isReceive, readsByte]

namespace State.Inv
variable {s : State}

/-- The invariant does not read the streams, nor what the model holds of the agents around the block. -/
theorem of_streams (h : s.Inv) {txs rxs : List Byte} {reports : List Report} {queue : List HostMove} {line : List Byte}
    {sched : List Agent} :
    ({ s with txs := txs, rxs := rxs, reports := reports, hostQueue := queue, lineIn := line, schedule := sched } :
      State).Inv :=
  ⟨h.bufferCanonical, h.transmit, h.receive, h.payload⟩

/-- An operation that ended with any outcome but `Ok`. -/
theorem of_idle_empty (hq : s.seq = .idle) (hbuf : s.rxBuf = []) (hready : s.rxReady = false) : s.Inv where
  bufferCanonical := by rw [hbuf]; rfl
  transmit := fun ht => by simp [hq, Seq.isTransmit] at ht
  receive := fun hr => by simp [hq, Seq.isReceive] at hr
  payload := fun _ => ⟨fun h => by simp [hready] at h, fun _ => hbuf⟩

/-- During a SEND only the transmit registers and the payload of the operation before it matter. -/
theorem of_isTransmit (hq : s.seq.isTransmit = true) (hwf : s.rxBuf.wf = true) (ht : s.transmitInv) (hp : s.payloadInv) :
    s.Inv :=
  ⟨hwf, ht, fun hr => by simp [Seq.isReceive_of_isTransmit hq] at hr, hp⟩

/-- During a RECV only the receive registers matter. -/
theorem of_isReceive (hq : s.seq.isReceive = true) (hwf : s.rxBuf.wf = true) (hr : s.receiveInv) : s.Inv :=
  ⟨hwf, fun ht => by simp [Seq.isTransmit_of_isReceive hq] at ht, hr, fun hn => by simp [hq] at hn⟩

/-- A RECV that has latched no length yet has stored nothing. -/
theorem of_before_length (hq : s.seq = .rxSettle ∨ s.seq = .rxHunt ∨ s.seq = .rxRsvd ∨ s.seq = .rxLen)
    (hvalid : s.lastValid = true) (hready : s.rxReady = false) (hsettle : s.seq ≠ .rxSettle → s.settlePending = false)
    (hbuf : s.rxBuf = []) : s.Inv := by
  refine of_isReceive ?_ (by rw [hbuf]; rfl) fun _ => ⟨hvalid, hready, hsettle, fun _ => hbuf, ?_⟩
  · rcases hq with h | h | h | h <;> rw [h] <;> rfl
  · rcases hq with h | h | h | h <;> simp [h]

/-- What a move that reads a byte can rely on. -/
theorem reading (h : s.Inv) (hq : s.seq.readsByte = true) :
    s.lastValid = true ∧ s.rxReady = false ∧ s.settlePending = false := by
  obtain ⟨hvalid, hready, hsettle, -⟩ := h.receive (Seq.isReceive_of_readsByte hq)
  exact ⟨hvalid, hready, hsettle fun e => by simp [e, Seq.readsByte] at hq⟩

/-- Before the echo is read the buffer is empty. -/
theorem rxBuf_empty (h : s.Inv)
    (hq : s.seq = .rxSettle ∨ s.seq = .rxHunt ∨ s.seq = .rxRsvd ∨ s.seq = .rxLen ∨ s.seq = .rxCmd) : s.rxBuf = [] := by
  obtain ⟨-, -, -, hbuf, -⟩ := h.receive (by rcases hq with e | e | e | e | e <;> rw [e] <;> rfl)
  exact hbuf hq

/-- Once the length is latched it counts the command byte, and the payload fits. -/
theorem rxLen_fits (h : s.Inv) (hq : s.seq = .rxCmd ∨ s.seq = .rxPay ∨ s.seq = .rxCsum) :
    1 ≤ s.rxLen.toNat ∧ s.rxLen.toNat - 1 ≤ s.rxCap := by
  obtain ⟨-, -, -, -, hlen, -⟩ := h.receive (by rcases hq with e | e | e <;> rw [e] <;> rfl)
  exact hlen hq

/-- Once the echo is read the buffer and the accumulator hold the part of the payload read, unless the echo mismatched. -/
theorem rxBuf_prefix (h : s.Inv) (hq : s.seq = .rxPay ∨ s.seq = .rxCsum) :
    s.rxMismatch = echoMismatch s.rxCmd s.lastCmd ∧
    (s.rxMismatch = true → s.rxBuf = []) ∧
    (s.rxMismatch = false →
      s.rxBuf.writtenTo s.rxIdx.toNat ∧ s.rxAcc = checksum s.rxLen s.rxCmd (s.rxBuf.map Prod.snd)) := by
  obtain ⟨-, -, -, -, -, hprefix, -⟩ := h.receive (by rcases hq with e | e <;> rw [e] <;> rfl)
  exact hprefix hq

end State.Inv

/-! ### The moves of a SEND -/

/-- A byte's successor counts on while it fits. -/
theorem toNat_succ_of_lt {b : Byte} {n : Nat} (h : b.toNat < n) (hn : n < 256) : (b + 1#8).toNat = b.toNat + 1 := by
  rw [BitVec.toNat_add_of_lt] <;> simp; omega

/-- The length byte latched for a payload that fits, less the command byte it counts. -/
theorem lengthByte_pred {n : Nat} (h : n ≤ maxPayload) : (lengthByte n).toNat - 1 = n := by
  rw [lengthByte_toNat h]; rfl

/-- A move of the header part of a frame keeps the transmit registers; it leaves for the payload or for the checksum by
whether there is a payload. -/
theorem State.transmitInv_goTo {s : State} {q : Seq} (h : s.transmitInv)
    (hs : s.seq = .txHdr ∨ s.seq = .txRsvd ∨ s.seq = .txLen ∨ s.seq = .txCmd)
    (hpay : q = .txPay → 0 < s.txBuf.length) (hcsum : q = .txCsum → s.txBuf.length = 0) : (s.goTo q).transmitInv := by
  obtain ⟨hvalid, hcmd, hfits, hlen, hacc, hidx, -, -⟩ := h (by rcases hs with e | e | e | e <;> rw [e] <;> rfl)
  have hidx : s.txIdx.toNat = 0 := by rw [hidx hs]; rfl
  exact fun _ => ⟨hvalid, hcmd, hfits, hlen, hacc, fun _ => BitVec.eq_of_toNat_eq hidx,
    fun hq => hidx ▸ hpay hq, fun hq => hidx.trans (hcsum hq).symm⟩

/-- Starting a frame latches the command and the length and adds them up (R94). -/
theorem State.startTransmission_inv {s : State} {cmd : Byte} {p : List Byte} (h : s.Inv) (hs : s.seq = .idle)
    (hp : p.length ≤ maxPayload) : ((s.recordCommand cmd).startTransmission cmd p).Inv := by
  obtain ⟨hready, hempty⟩ := h.payload (by rw [hs]; rfl)
  have hacc : BitVec.ofNat 8 (p.length + 1 + cmd.toNat) = checksum (lengthByte p.length) cmd [] := by
    simp [checksum, lengthByte_toNat hp]
  refine .of_isTransmit rfl h.bufferCanonical (fun _ => ⟨rfl, rfl, hp, rfl, hacc, fun _ => rfl, ?_, ?_⟩)
    fun _ => ⟨fun hr => ?_, hempty⟩
  · simp
  · simp
  · obtain ⟨hok, -, hread⟩ := hready hr
    exact ⟨hok, rfl, hread⟩

/-- A payload move adds the byte it writes and counts it (R99). -/
theorem TransmitMove.pay_transmitInv {s : State} {b : Byte} (h : s.transmitInv) (hq : s.seq = .txPay)
    (hb : s.txBuf[s.txIdx.toNat]? = some b) :
    ({ s with
      txAcc := s.txAcc + b
      txIdx := s.txIdx + 1#8
      seq := if s.txIdx.toNat + 1 = s.txLen.toNat - 1 then .txCsum else .txPay } : State).transmitInv := by
  obtain ⟨hvalid, hcmd, hfits, hlen, hacc, -, hlt, -⟩ := h (by rw [hq]; rfl)
  have hlt : s.txIdx.toNat < s.txBuf.length := hlt hq
  have hidx : (s.txIdx + 1#8).toNat = s.txIdx.toNat + 1 := toNat_succ_of_lt hlt (Nat.lt_of_le_of_lt hfits (by decide))
  have hcount : s.txLen.toNat - 1 = s.txBuf.length := by rw [hlen, lengthByte_pred hfits]
  have htake : s.txBuf.take (s.txIdx.toNat + 1) = s.txBuf.take s.txIdx.toNat ++ [b] := by
    rw [List.take_add_one, hb]; rfl
  refine fun _ => ⟨hvalid, hcmd, hfits, hlen, ?_, ?_, ?_, ?_⟩
  · simp only [hidx, htake, checksum_snoc, hacc]
  all_goals
    simp only [hidx, hcount]
    split <;> simp
  all_goals omega

/-- Every move of a SEND keeps the invariant. -/
theorem TransmitMove.inv {s u : State} {b : Byte} (hu : TransmitMove s b u) (h : s.Inv) : u.Inv := by
  have hwf : u.rxBuf.wf = true := hu.bufferChange.wf h.bufferCanonical
  have hpay := h.payload (Seq.isReceive_of_isTransmit hu.isTransmit)
  cases hu with
  | hdr hq | rsvd hq | len hq =>
    exact .of_isTransmit rfl hwf (s.transmitInv_goTo h.transmit (by simp [hq]) nofun nofun) fun _ => hpay
  | cmd hq =>
    obtain ⟨-, -, hfits, hlen, -⟩ := h.transmit (by rw [hq]; rfl)
    have hcount : s.txLen.toNat - 1 = s.txBuf.length := by rw [hlen, lengthByte_pred hfits]
    rw [hcount] at hwf ⊢
    split
    · exact .of_isTransmit rfl hwf (s.transmitInv_goTo h.transmit (by simp [hq]) (fun _ => ‹_›) nofun) fun _ => hpay
    · exact .of_isTransmit rfl hwf (s.transmitInv_goTo h.transmit (by simp [hq]) nofun fun _ => by omega) fun _ => hpay
  | pay hq hb =>
    refine .of_isTransmit ?_ hwf (pay_transmitInv h.transmit hq hb) fun _ => hpay
    simp only
    split <;> rfl
  | csum => exact .of_idle_empty rfl rfl rfl

/-! ### The moves of a RECV -/

/-- A payload move stores the byte at the end of what is written, and adds and counts it (R110). -/
theorem ReceiveMove.pay_inv {s : State} {b : Byte} (h : s.Inv) (hq : s.seq = .rxPay)
    (hwf : (if s.rxMismatch then s.rxBuf else Memory.write s.rxBuf s.rxIdx.toNat b).wf = true) :
    ({ s with
      rxAcc := s.rxAcc + b
      rxBuf := if s.rxMismatch then s.rxBuf else Memory.write s.rxBuf s.rxIdx.toNat b
      rxIdx := s.rxIdx + 1#8
      seq := if s.rxIdx.toNat + 1 = s.rxLen.toNat - 1 then .rxCsum else .rxPay } : State).Inv := by
  obtain ⟨hvalid, hready, hsettle, -, -, -, hlt, -⟩ := h.receive (by rw [hq]; rfl)
  obtain ⟨hecho, hskip, hstore⟩ := h.rxBuf_prefix (.inl hq)
  have hlen := h.rxLen_fits (.inr (.inl hq))
  have hlt : s.rxIdx.toNat + 1 < s.rxLen.toNat := hlt hq
  have hidx : (s.rxIdx + 1#8).toNat = s.rxIdx.toNat + 1 :=
    toNat_succ_of_lt (Nat.lt_of_succ_lt hlt) s.rxLen.isLt
  refine .of_isReceive ?_ hwf fun _ => ⟨hvalid, hready, fun _ => hsettle (by simp [hq]), ?_, fun _ => hlen,
    fun _ => ⟨hecho, fun hm => ?_, fun hm => ?_⟩, ?_, ?_⟩
  · simp only; split <;> rfl
  · simp only; split <;> simp
  · simp only at hm ⊢
    rw [if_pos hm, hskip hm]
  · simp only at hm
    obtain ⟨hwritten, hacc⟩ := hstore hm
    have hbuf : (if s.rxMismatch then s.rxBuf else Memory.write s.rxBuf s.rxIdx.toNat b) =
        s.rxBuf ++ [(s.rxIdx.toNat, b)] := by simp [hm, Memory.writtenTo_write b hwritten]
    simp only [hbuf, hidx]
    refine ⟨?_, ?_⟩
    · rw [Memory.writtenTo, List.map_append, hwritten, List.range_succ]; rfl
    · rw [List.map_append, List.map_singleton, checksum_snoc, hacc]
  all_goals
    simp only [hidx]
    split <;> simp
  all_goals omega

/-- A RECV that ends `Ok` leaves a whole payload (R112). -/
theorem State.endOk_inv {s : State} (h : s.Inv) (hq : s.seq = .rxCsum) (hm : s.rxMismatch = false) : s.endOk.Inv where
  bufferCanonical := h.bufferCanonical
  transmit := nofun
  receive := nofun
  payload := by
    obtain ⟨hvalid, -, -, -, -, -, -, hlast⟩ := h.receive (by rw [hq]; rfl)
    obtain ⟨hpos, hcap⟩ := h.rxLen_fits (.inr (.inr hq))
    obtain ⟨-, -, hstore⟩ := h.rxBuf_prefix (.inr hq)
    have hlen : (s.rxLen - 1#8).toNat = s.rxLen.toNat - 1 := by bv_omega
    have hidx : s.rxIdx.toNat = s.rxLen.toNat - 1 := by have := hlast hq; omega
    have hwritten : s.rxBuf.writtenTo (s.rxLen.toNat - 1) := hidx ▸ (hstore hm).1
    refine fun _ => ⟨fun _ => ⟨rfl, hvalid, ?_⟩, nofun⟩
    rw [State.endOk_resLen, hlen]
    exact ⟨hwritten, hcap, by have := s.rxLen.isLt; unfold maxPayload; omega⟩

/-- Every move of a RECV that reads a byte keeps the invariant. -/
theorem ReceiveMove.inv {s t : State} {b : Byte} (hu : ReceiveMove s b t) (h : s.Inv) : t.Inv := by
  have hwf : t.rxBuf.wf = true := hu.bufferChange.wf h.bufferCanonical
  obtain ⟨hvalid, hready, hsettle⟩ := h.reading hu.readsByte
  cases hu with
  | hunt hq =>
    refine .of_before_length ?_ hvalid hready (fun _ => hsettle) (h.rxBuf_empty (by simp [hq]))
    simp only [State.goTo_seq]
    split <;> simp
  | rsvd hq => exact .of_before_length (by simp) hvalid hready (fun _ => hsettle) (h.rxBuf_empty (by simp [hq]))
  | len hq hb hcap =>
    refine .of_isReceive rfl hwf fun _ => ⟨hvalid, hready, fun _ => hsettle, fun _ => h.rxBuf_empty (by simp [hq]),
      fun _ => ⟨Nat.pos_of_ne_zero hb, hcap⟩, ?_⟩
    simp
  | cmd hq =>
    obtain ⟨hpos, hcap⟩ := h.rxLen_fits (.inl hq)
    have hbuf : s.rxBuf = [] := h.rxBuf_empty (by simp [hq])
    refine .of_isReceive ?_ hwf fun _ => ⟨hvalid, hready, fun _ => hsettle, fun _ => hbuf, fun _ => ⟨hpos, hcap⟩,
      fun _ => ⟨rfl, fun _ => hbuf, fun _ => ?_⟩, ?_, ?_⟩
    · simp only; split <;> rfl
    · simp only [hbuf]
      exact ⟨rfl, (checksum_nil _ _).symm⟩
    all_goals
      simp only
      split <;> simp
    all_goals omega
  | pay hq => exact pay_inv h hq hwf
  | ok hq hm => exact s.endOk_inv h hq hm
  | error => exact .of_idle_empty rfl rfl rfl

/-- Every move of the codec keeps the invariant. -/
theorem CodecMove.inv {s t : State} (hm : CodecMove s t) (h : s.Inv) : t.Inv := by
  cases hm with
  | wait => exact h
  | settled hq hp =>
    obtain ⟨hvalid, hready, -⟩ := h.receive (by rw [hq]; rfl)
    exact .of_before_length (by simp) hvalid hready (fun _ => hp) (h.rxBuf_empty (.inl hq))
  | transmit hu => exact (hu.inv h).of_streams
  | receive _ hu => exact hu.inv h.of_streams

/-! ### The other agents -/

theorem State.acceptSend_inv {s : State} (h : s.Inv) (hs : s.seq = .idle) (cmd : Byte) (p : List Byte) :
    (s.acceptSend cmd p).Inv := by
  rcases s.acceptSend_cases cmd p with ⟨-, e⟩ | ⟨hp, e⟩ <;> rw [e]
  · exact .of_idle_empty rfl rfl rfl
  · exact s.startTransmission_inv h hs hp

/-- A RECV needs nothing of the state before it but the record: it starts with an empty buffer (R102). -/
theorem State.acceptRecv_inv (s : State) (cap : Nat) : (s.acceptRecv cap).Inv := by
  rcases s.acceptRecv_cases cap with ⟨-, e⟩ | ⟨hvalid, e⟩ <;> rw [e]
  · exact .of_idle_empty rfl rfl rfl
  · refine .of_before_length ?_ hvalid rfl (fun hq => ?_) rfl
    · rw [State.startReception_seq]
      split <;> simp
    · cases hp : s.settlePending
      · exact hp
      · simp [hp] at hq

/-- Every turn of the host keeps the invariant. -/
theorem HostMade.inv {s t : State} (hm : HostMade s t) (h : s.Inv) : t.Inv := by
  cases hm with
  | queued => exact h.of_streams
  | reset => exact .of_idle_empty rfl rfl rfl
  | @sent _ _ queue _ cmd p hs =>
    have hqueue : ({ s with hostQueue := queue } : State).Inv := h.of_streams
    exact State.acceptSend_inv hqueue hs cmd p
  | received => exact State.acceptRecv_inv _ _
  | cancelled => exact .of_idle_empty rfl rfl rfl
  | decoded => exact h.of_streams

theorem State.deliver_inv {s : State} (h : s.Inv) : s.deliver.Inv := by
  rcases s.deliver_cases with ⟨-, e⟩ | ⟨b, rest, -, e⟩ <;> rw [e]
  · exact h
  · exact h.of_streams

/-- The end of the settle interval is what a RECV past `RX_SETTLE` relies on (R103, R104). -/
theorem State.settleElapsed_inv {s : State} (h : s.Inv) : s.settleElapsed.Inv where
  bufferCanonical := h.bufferCanonical
  transmit := h.transmit
  receive := fun hr => by
    obtain ⟨hvalid, hready, -, hrest⟩ := h.receive hr
    exact ⟨hvalid, hready, fun _ => rfl, hrest⟩
  payload := h.payload

/-! ### The obligation -/

/-- Settles O55: by the agent whose turn it is. -/
theorem invariantKeptByEveryStep : Obligations.InvariantKeptByEveryStep := by
  intro s t h hstep
  have htick : s.tick.Inv := h.of_streams
  cases step_next hstep with
  | host _ hm => exact hm.inv htick
  | codec _ hm => exact hm.inv htick
  | transport => exact State.deliver_inv htick
  | timer => exact State.settleElapsed_inv htick

end Sys2Proof.Machine
end

section
/-! PROOFS. What the invariant says to the caller: the payload it can read, and the accumulators as sums. -/

namespace Sys2Proof.Machine

/-! ### Reading a buffer written from its start -/

/-- Cells numbered from `k` on read back by position. -/
theorem Memory.read_range'_zip (p : List Byte) (k a : Nat) :
    Memory.read ((List.range' k p.length).zip p) (k + a) = p[a]? := by
  induction p generalizing k a with
  | nil => rfl
  | cons b p ih =>
    rw [List.length_cons, List.range'_succ, List.zip_cons_cons, Memory.read]
    cases a with
    | zero => simp
    | succ a =>
      rw [if_neg (by omega), List.getElem?_cons_succ, ← ih (k + 1) a]
      congr 1
      omega

theorem Memory.read_cellsOf (p : List Byte) (a : Nat) : Memory.read (cellsOf p) a = p[a]? := by
  have h := Memory.read_range'_zip p 0 a
  rwa [Nat.zero_add, ← List.range_eq_range'] at h

/-- A buffer with exactly the cells `0 .. n - 1` is the cells of its bytes. -/
theorem Memory.eq_cellsOf {m : Memory} {n : Nat} (h : m.writtenTo n) :
    m = cellsOf (m.map Prod.snd) ∧ (m.map Prod.snd).length = n := by
  have hlen : m.length = n := by
    have := congrArg List.length h
    simpa using this
  refine ⟨?_, by rw [List.length_map, hlen]⟩
  rw [cellsOf, List.length_map, hlen]
  exact List.zip_of_prod h rfl

/-- Reading the cells of `p` from `a` on, inside the capacity, answers its bytes from `a` on. -/
theorem State.readCells_cellsOf {s : State} {p : List Byte} (hbuf : s.rxBuf = cellsOf p) (hcap : p.length ≤ s.rxCap)
    {a n : Nat} (h : a + n = p.length) : s.readCells a n = .ok (p.drop a) := by
  induction n generalizing a with
  | zero => rw [List.drop_eq_nil_of_le (by omega)]; rfl
  | succ n ih =>
    have ha : a < p.length := by omega
    have hcell : s.readCell a = .ok p[a] := by
      simp [State.readCell, Nat.lt_of_lt_of_le ha hcap, hbuf, Memory.read_cellsOf, List.getElem?_eq_getElem ha]
    have hrest : s.readCells (a + 1) n = .ok (p.drop (a + 1)) := ih (by omega)
    rw [List.drop_eq_getElem_cons ha]
    simp only [State.readCells, hcell, hrest]

/-! ### The obligations -/

/-- Settles O58: the invariant gives the cells of the payload, and reading them all answers it. -/
theorem payloadReadableWhenReady : Obligations.PayloadReadableWhenReady := by
  intro s h hq
  obtain ⟨hwhole, hempty⟩ := h.payload hq
  refine ⟨fun hready => ?_, fun hcode => ?_⟩
  · obtain ⟨hok, -, hwritten, hcap, -⟩ := hwhole hready
    obtain ⟨hbuf, hlen⟩ := Memory.eq_cellsOf hwritten
    have hfits : (s.rxBuf.map Prod.snd).length ≤ s.rxCap := hlen ▸ hcap
    refine ⟨hok, s.rxBuf.map Prod.snd, ⟨hready, hok, hbuf, hlen.symm, hfits⟩, ?_, hlen⟩
    have hread : s.readCells 0 s.resLen.toNat = .ok (s.rxBuf.map Prod.snd) :=
      State.readCells_cellsOf hbuf hfits (by rw [Nat.zero_add, hlen])
    rw [State.payload, if_pos ⟨hready, hok⟩, hread]
  · have hready : s.rxReady = false := by
      cases hr : s.rxReady
      · rfl
      · exact absurd (hwhole hr).1 hcode
    exact ⟨fun a => by rw [hempty hready, Memory.read_nil], by simp [State.payload, hready]⟩

/-- Settles O14: the invariant says both accumulators are checksums, and the checksum is a sum mod 256. -/
theorem accumulatorIsChecksumOfPrefix : Obligations.AccumulatorIsChecksumOfPrefix := by
  have hsum : ∀ (len cmd : Byte) (p : List Byte),
      (checksum len cmd p).toNat = (len.toNat + cmd.toNat + (p.map BitVec.toNat).sum) % 256 :=
    fun _ _ _ => BitVec.toNat_ofNat ..
  refine ⟨fun len cmd b p => ⟨hsum len cmd p, checksum_snoc len cmd p b⟩, fun s h hq => ?_, fun s h hq hecho => ?_⟩
  · obtain ⟨-, -, hfits, hlen, hacc, -⟩ := h.transmit hq
    rw [hacc, hsum, hlen, lengthByte_toNat hfits]
  · obtain ⟨hmismatch, -, hstore⟩ := h.rxBuf_prefix hq
    obtain ⟨hwritten, hacc⟩ := hstore (by rw [hmismatch, hecho]; simp [echoMismatch])
    refine ⟨hwritten, ?_⟩
    rw [hacc, hsum, List.map_map]
    rfl

end Sys2Proof.Machine
end

section
/-! PROOFS. The receive stream and the buffers: a byte that arrives waits its turn, none is read while the settle interval
runs, and from a state that meets the invariant no access leaves a buffer. -/

namespace Sys2Proof.Machine

/-! ### A byte that arrives (R50) -/

/-- `s` with one byte more at the end of `RXS`. -/
def State.arrived (s : State) (b : Byte) : State := { s with rxs := s.rxs ++ [b] }

@[simp] theorem State.arrived_seq (s : State) (b : Byte) : (s.arrived b).seq = s.seq := rfl
@[simp] theorem State.arrived_rxs (s : State) (b : Byte) : (s.arrived b).rxs = s.rxs ++ [b] := rfl
@[simp] theorem State.arrived_rxCap (s : State) (b : Byte) : (s.arrived b).rxCap = s.rxCap := rfl
@[simp] theorem State.arrived_rxMismatch (s : State) (b : Byte) : (s.arrived b).rxMismatch = s.rxMismatch := rfl
@[simp] theorem State.arrived_rxAcc (s : State) (b : Byte) : (s.arrived b).rxAcc = s.rxAcc := rfl

/-- From `s`, the byte `b` may arrive before the move or after it. -/
def CommutesWithArrival (b : Byte) (move : State → Result) (s : State) : Prop :=
  ∀ t, move s = .next t → move (s.arrived b) = .next (t.arrived b)

section
variable {b : Byte} {s : State}

/-- A move that always answers commutes when its update does. -/
theorem CommutesWithArrival.of_update {f : State → State} (h : f (s.arrived b) = (f s).arrived b) :
    CommutesWithArrival b (fun s => .next (f s)) s := by
  intro t e
  cases e
  exact congrArg _ h

/-- With a byte waiting, `RxRead` takes the same byte before and after the arrival. -/
theorem CommutesWithArrival.of_rxRead {k : Byte → State → Result} (hne : s.rxs ≠ [])
    (hk : ∀ c u, CommutesWithArrival b (k c) u) : CommutesWithArrival b (fun s => s.rxRead k) s := by
  intro t e
  rcases s.rxRead_cases k with ⟨hnil, -⟩ | ⟨c, rest, hr, hread⟩
  · exact absurd hnil hne
  · have hr' : (s.arrived b).rxs = c :: (rest ++ [b]) := by simp [hr]
    exact (State.rxRead_cons k hr').trans (hk c _ t (hread.symm.trans e))

theorem moveTxPay_commutes : CommutesWithArrival b moveTxPay s := by
  intro t e
  unfold moveTxPay at e
  split at e <;> cases e
  have hb : (s.arrived b).txBuf[(s.arrived b).txIdx.toNat]? = some _ := ‹s.txBuf[s.txIdx.toNat]? = some _›
  rw [moveTxPay, hb]
  rfl

theorem moveRxSettle_commutes : CommutesWithArrival b moveRxSettle s := by
  intro t e
  unfold moveRxSettle at e
  split at e <;> cases e
  · exact if_pos ‹_›
  · exact if_neg ‹_›

theorem moveRxHunt_commutes (hne : s.rxs ≠ []) : CommutesWithArrival b moveRxHunt s :=
  .of_rxRead hne fun _ _ => .of_update rfl

theorem moveRxRsvd_commutes (hne : s.rxs ≠ []) : CommutesWithArrival b moveRxRsvd s :=
  .of_rxRead hne fun _ _ => .of_update (by split <;> rfl)

theorem moveRxLen_commutes (hne : s.rxs ≠ []) : CommutesWithArrival b moveRxLen s := by
  refine .of_rxRead hne fun c u => .of_update ?_
  rw [State.arrived_rxCap]
  split
  · rfl
  · split <;> rfl

theorem moveRxCmd_commutes (hne : s.rxs ≠ []) : CommutesWithArrival b moveRxCmd s :=
  .of_rxRead hne fun _ _ => .of_update rfl

theorem moveRxPay_commutes (hne : s.rxs ≠ []) : CommutesWithArrival b moveRxPay s := by
  refine .of_rxRead hne fun c u t e => ?_
  split at e <;> cases e
  exact if_neg ‹_›

theorem moveRxCsum_commutes (hne : s.rxs ≠ []) : CommutesWithArrival b moveRxCsum s := by
  refine .of_rxRead hne fun c u => .of_update ?_
  rw [State.arrived_rxMismatch, State.arrived_rxAcc]
  split
  · rfl
  · split <;> rfl

/-- Arrival commutes with every move of the codec but the wait for a byte that is not there. -/
theorem codecStep_commutes (hne : s.seq.readsByte = true → s.rxs ≠ []) : CommutesWithArrival b codecStep s := by
  intro t e
  unfold codecStep at e ⊢
  rw [State.arrived_seq]
  cases hq : s.seq <;> rw [hq] at e hne
  case idle | txHdr | txRsvd | txLen | txCmd | txCsum => cases e; rfl
  case txPay => exact moveTxPay_commutes t e
  case rxSettle => exact moveRxSettle_commutes t e
  case rxHunt => exact moveRxHunt_commutes (hne rfl) t e
  case rxRsvd => exact moveRxRsvd_commutes (hne rfl) t e
  case rxLen => exact moveRxLen_commutes (hne rfl) t e
  case rxCmd => exact moveRxCmd_commutes (hne rfl) t e
  case rxPay => exact moveRxPay_commutes (hne rfl) t e
  case rxCsum => exact moveRxCsum_commutes (hne rfl) t e

end

/-! ### What can fault -/

/-- The two ways a move of the codec can fault: it reads past the end of `tx_buf`, or stores past the capacity (R56). -/
inductive CodecFault (s : State) : Fault → Prop
  | txBuf (hq : s.seq = .txPay) (hb : s.txBuf.length ≤ s.txIdx.toNat) : CodecFault s .txBufIndex
  | rxBuf (hq : s.seq = .rxPay) (hm : s.rxMismatch = false) (hcap : s.rxCap ≤ s.rxIdx.toNat) : CodecFault s .rxBufIndex

section
variable {s : State} {f : Fault}

/-- A read whose continuation always answers does not fault. -/
theorem State.rxRead_update_ne_fault (u : Byte → State → State) : s.rxRead (fun b s => .next (u b s)) ≠ .fault f := by
  intro h
  rcases s.rxRead_cases fun b s => .next (u b s) with ⟨-, e⟩ | ⟨_, _, -, e⟩ <;> cases e.symm.trans h

theorem moveTxPay_fault (hq : s.seq = .txPay) (h : moveTxPay s = .fault f) : CodecFault s f := by
  unfold moveTxPay at h
  split at h <;> cases h
  exact .txBuf hq (List.getElem?_eq_none_iff.1 ‹_›)

theorem moveRxPay_fault (hq : s.seq = .rxPay) (h : moveRxPay s = .fault f) : CodecFault s f := by
  unfold moveRxPay at h
  rcases s.rxRead_cases _ with ⟨-, e⟩ | ⟨b, rest, -, e⟩ <;> have h := e.symm.trans h
  · cases h
  · split at h <;> cases h
    obtain ⟨hm, hcap⟩ := ‹_ ∧ _›
    exact .rxBuf hq hm hcap

/-- Everything a move of the codec can fault by. -/
theorem codecStep_fault (h : codecStep s = .fault f) : CodecFault s f := by
  unfold codecStep at h
  cases hq : s.seq <;> rw [hq] at h
  case idle | txHdr | txRsvd | txLen | txCmd | txCsum => cases h
  case txPay => exact moveTxPay_fault hq h
  case rxSettle => simp only [moveRxSettle] at h; split at h <;> cases h
  case rxHunt | rxRsvd | rxLen | rxCmd | rxCsum => exact absurd h (State.rxRead_update_ne_fault _)
  case rxPay => exact moveRxPay_fault hq h

/-- An instruction faults only as a decoder call in `IDLE` whose payload cannot be read (R170). -/
theorem exec_fault {i : Instr} (h : exec i s = .fault f) : s.seq = .idle ∧ s.payload = .error f := by
  rcases exec_cases i s with ⟨-, -, e⟩ | ⟨-, _, _, -, e⟩ | ⟨-, _, -, e⟩ | ⟨-, e⟩ | ⟨-, -, d, e⟩ <;>
    have h := e.symm.trans h
  case inr.inr.inr.inr =>
    rcases applyDecoder_cases d s with ⟨-, e⟩ | ⟨hq, _, hp, e⟩ | ⟨-, _, -, e⟩ <;> cases e.symm.trans h
    exact ⟨hq, hp⟩
  all_goals cases h

theorem presentRequest_fault {image : List Byte} {rest : List HostMove} (h : presentRequest image rest s = .fault f) :
    s.seq = .idle ∧ ∃ queue, ({ s with hostQueue := queue } : State).payload = .error f := by
  unfold presentRequest at h
  split at h
  · obtain ⟨hq, hp⟩ := exec_fault h
    exact ⟨hq, _, hp⟩
  · cases h
  · cases h

/-- A turn of the host faults only by presenting such a decoder call. -/
theorem hostTurn_fault (h : hostTurn s = .fault f) :
    s.seq = .idle ∧ ∃ queue, ({ s with hostQueue := queue } : State).payload = .error f := by
  unfold hostTurn at h
  split at h
  · cases h
  · cases h
  · exact presentRequest_fault h
  · split at h
    · cases h
    · split at h
      · exact presentRequest_fault h
      · cases h

/-! ### What the invariant shuts out -/

/-- The next payload byte to write is in `tx_buf`, and the next one to store is below the capacity (R56). -/
theorem State.Inv.not_codecFault (h : s.Inv) : ¬ CodecFault s f := by
  rintro (⟨hq, hb⟩ | ⟨hq, hm, hcap⟩)
  · obtain ⟨-, -, -, -, -, -, hidx, -⟩ := h.transmit (by rw [hq]; rfl)
    exact absurd (hidx hq) (Nat.not_lt.2 hb)
  · obtain ⟨-, -, -, -, -, -, hidx, -⟩ := h.receive (by rw [hq]; rfl)
    obtain ⟨-, hfits⟩ := h.rxLen_fits (.inr (.inl hq))
    have := hidx hq
    omega

/-- In `IDLE` the payload cannot be read only for want of one: of a payload that is there every cell is written. -/
theorem State.Inv.payload_error (h : s.Inv) (hq : s.seq = .idle) (hp : s.payload = .error f) :
    f = .noPayload ∧ s.rxReady = false := by
  obtain ⟨hread, -⟩ := payloadReadableWhenReady s h (by rw [hq]; rfl)
  cases hr : s.rxReady
  · rw [State.payload, if_neg (by simp [hr])] at hp
    cases hp
    exact ⟨rfl, rfl⟩
  · obtain ⟨-, p, -, hok, -⟩ := hread hr
    cases hok.symm.trans hp

end

/-! ### The obligations -/

/-- Settles O28: the oldest byte of `RXS` and every register a move reads are the same before and after the arrival. -/
theorem arrivalCommutesWithCodecMove : Obligations.ArrivalCommutesWithCodecMove :=
  fun _ t _ hne h => codecStep_commutes hne t h

/-- Settles O40: only a codec move that reads takes a byte from `RXS`, and such a state has the settle interval over. -/
theorem noByteReadDuringSettle : Obligations.NoByteReadDuringSettle := by
  intro s t b h hstep hr
  have hlen : s.rxs.length = t.rxs.length + 1 := by rw [hr, List.length_cons]
  rcases receiveStreamIsFifo.1 s t hstep with ⟨hrxs, -⟩ | ⟨-, hreads, -⟩ | ⟨-, _, -, hrxs⟩
  · rw [hrxs] at hlen; omega
  · obtain ⟨-, -, hsettle⟩ := h.reading hreads
    exact hsettle
  · rw [hrxs, List.length_append] at hlen; omega

/-- Settles O57: by the agent whose turn it is. The codec's two faults leave a buffer, which the invariant shuts out; the
host's is a decoder call without a payload; the transport and the timer have none. -/
theorem onlyFaultIsDecoderWithoutPayload : Obligations.OnlyFaultIsDecoderWithoutPayload := by
  intro s f h hstep
  have htick : s.tick.Inv := h.of_streams
  unfold step at hstep
  cases ha : s.nextAgent <;> rw [ha] at hstep
  case host =>
    obtain ⟨hq, queue, hp⟩ := hostTurn_fault hstep
    have hqueue : ({ s.tick with hostQueue := queue } : State).Inv := htick.of_streams
    obtain ⟨hf, hready⟩ := hqueue.payload_error hq hp
    exact ⟨hf, hready, rfl, hq⟩
  case codec => exact absurd (codecStep_fault hstep) htick.not_codecFault
  case transport | timer => cases hstep

end Sys2Proof.Machine
end

section
/-! PROOFS. The request images: what each selector byte leads to, decoding as the inverse of encoding, and which frames name a
command. -/

namespace Sys2Proof.Machine

/-! ### What the first byte selects -/

theorem decode_send (image : List Byte) : decode (0x01#8 :: image) = decodeSendImage image := rfl
theorem decode_recv (image : List Byte) : decode (0x02#8 :: image) = decodeRecvImage image := rfl
theorem decode_frame (image : List Byte) : decode (header :: image) = decodeFrameImage image := rfl

/-! ### Frame images -/

theorem framePayloadLength_le (len : Byte) : framePayloadLength len ≤ maxFrameImagePayload := by
  have := len.isLt
  unfold framePayloadLength maxFrameImagePayload
  split <;> omega

/-- The length byte of a frame announces its payload, the oversized one of 255 bytes included (log 5). -/
theorem framePayloadLength_lengthByte {n : Nat} (h : n ≤ maxFrameImagePayload) :
    framePayloadLength (lengthByte n) = n := by
  have hbyte : (lengthByte n).toNat = (n + 1) % 256 := BitVec.toNat_ofNat ..
  rw [framePayloadLength, hbyte]
  unfold maxFrameImagePayload at h ⊢
  split <;> omega

/-- A frame of an assigned command code is an instruction whatever its checksum byte `ck` is (R75; log 5). -/
theorem decodeFrameImage_of_commandOf {len code ck : Byte} {command : List Byte → Instr} {p : List Byte}
    (hcode : commandOf code = some command) (hlen : framePayloadLength len = p.length) (rest : List Byte) :
    decodeFrameImage (reservedByte :: len :: code :: (p ++ ck :: rest)) = .ok (command p, rest) := by
  simp [decodeFrameImage, hcode, hlen]

/-- The image of a command frame decodes to the command. -/
theorem decode_encodeFrame {code : Byte} {command : List Byte → Instr} {p : List Byte}
    (hcode : commandOf code = some command) (hp : p.length ≤ maxFrameImagePayload) (rest : List Byte) :
    decode (encodeFrame code p ++ rest) = .ok (command p, rest) := by
  have hlen := framePayloadLength_lengthByte hp
  rw [← decodeFrameImage_of_commandOf (ck := checksum (lengthByte p.length) code p) hcode hlen rest, ← decode_frame]
  simp [encodeFrame]

/-- Of a FRAME row: its image, what its image can hold, and its code, which `commandOf` gives back (R69). -/
theorem commandFrame_some {i : Instr} {code : Byte} {p : List Byte} (h : commandFrame i = some (code, p)) :
    encode i = encodeFrame code p ∧ i.wellFormed = decide (p.length ≤ maxFrameImagePayload) ∧
      ∃ command, commandOf code = some command ∧ command p = i := by
  cases i with
  | send | recv | cancel | decTag | decFwString | decFwU32 | decAuth | decReadBlock | decReadValue => cases h
  | _ => cases h; exact ⟨rfl, rfl, _, rfl, rfl⟩

/-! ### Host operation images -/

/-- The two bytes of a SEND image's length field hold a 9-bit length, and no bit above it is set (log 4). -/
theorem sendLengthField {n : Nat} (h : n ≤ maxSendImagePayload) :
    (BitVec.ofNat 8 (n / 256)).toNat ≤ 1 ∧
      (BitVec.ofNat 8 n).toNat + 256 * (BitVec.ofNat 8 (n / 256)).toNat = n := by
  unfold maxSendImagePayload at h
  simp only [BitVec.toNat_ofNat]
  omega

theorem decode_encode_send {p : List Byte} (cmd : Byte) (hp : p.length ≤ maxSendImagePayload) (rest : List Byte) :
    decode (encode (.send cmd p) ++ rest) = .ok (.send cmd p, rest) := by
  obtain ⟨hhigh, hlen⟩ := sendLengthField hp
  simp only [encode, List.cons_append, List.nil_append, decode_send, decodeSendImage]
  rw [if_neg (Nat.not_lt.2 hhigh), hlen, takeExactly_append]

theorem decode_encode_recv {cap : Nat} (hcap : cap ≤ maxImageCap) (rest : List Byte) :
    decode (encode (.recv cap) ++ rest) = .ok (.recv cap, rest) := by
  have hbyte : (BitVec.ofNat 8 cap).toNat = cap := by
    rw [BitVec.toNat_ofNat]; exact Nat.mod_eq_of_lt (Nat.lt_succ_of_le hcap)
  simp only [encode, List.cons_append, List.nil_append, decode_recv, decodeRecvImage, hbyte]

/-! ### Which bytes are a command code -/

/-- The 19 command codes of R69. -/
def assignedCodes : List Byte :=
  [0x80#8, 0x81#8, 0x82#8, 0x83#8, 0x85#8, 0x86#8, 0x87#8, 0x89#8, 0x8A#8, 0x8B#8, 0x8C#8, 0x8D#8, 0x8E#8, 0x90#8,
    0x91#8, 0x92#8, 0x93#8, 0x94#8, 0x96#8]

/-- By going through the 256 bytes. -/
theorem commandOf_isSome_iff : ∀ code : Byte, (commandOf code).isSome = true ↔ code ∈ assignedCodes := by
  decide

theorem exists_commandOf_iff (code : Byte) : (∃ command, commandOf code = some command) ↔ code ∈ assignedCodes := by
  rw [← commandOf_isSome_iff, Option.isSome_iff_exists]

/-- What a frame image that is an instruction has in its reserved byte and in its command byte. -/
theorem decodeFrameImage_ok {rsvd len code : Byte} {body : List Byte} {r : Instr × List Byte}
    (h : decodeFrameImage (rsvd :: len :: code :: body) = .ok r) :
    rsvd = reservedByte ∧ ∃ command, commandOf code = some command := by
  by_cases hrsvd : rsvd = reservedByte
  · cases hcode : commandOf code with
    | none => simp [decodeFrameImage, hrsvd, hcode] at h
    | some command => exact ⟨hrsvd, command, rfl⟩
  · simp [decodeFrameImage, hrsvd] at h

/-- With as many bytes as any length byte can announce and one for the checksum, a frame of an assigned code is an
instruction. -/
theorem decodeFrameImage_of_long_body {code : Byte} {command : List Byte → Instr} {body : List Byte} (len : Byte)
    (hcode : commandOf code = some command) (hbody : maxFrameImagePayload < body.length) :
    ∃ r, decodeFrameImage (reservedByte :: len :: code :: body) = .ok r := by
  have hn : framePayloadLength len < body.length := Nat.lt_of_le_of_lt (framePayloadLength_le len) hbody
  have hsplit : body = body.take (framePayloadLength len) ++
      body[framePayloadLength len] :: body.drop (framePayloadLength len + 1) := by
    rw [← List.drop_eq_getElem_cons hn, List.take_append_drop]
  have htake : framePayloadLength len = (body.take (framePayloadLength len)).length :=
    (List.length_take_of_le hn.le).symm
  rw [hsplit]
  exact ⟨_, decodeFrameImage_of_commandOf hcode htake _⟩

/-! ### Which images ask for nothing -/

theorem decodeFrameImage_ne_noOperation (image : List Byte) : decodeFrameImage image ≠ .error .noOperation := by
  fun_cases decodeFrameImage image <;> nofun

theorem decodeSendImage_ne_noOperation (image : List Byte) : decodeSendImage image ≠ .error .noOperation := by
  fun_cases decodeSendImage image <;> nofun

theorem decodeRecvImage_ne_noOperation (image : List Byte) : decodeRecvImage image ≠ .error .noOperation := by
  fun_cases decodeRecvImage image <;> nofun

/-- Only the selector byte `00` asks for nothing (R73): an image that is no instruction for any other reason errs
by another name. -/
theorem decode_noOperation_iff (image : List Byte) :
    decode image = .error .noOperation ↔ ∃ rest, image = 0x00#8 :: rest := by
  refine ⟨fun h => ?_, fun ⟨rest, e⟩ => e ▸ rfl⟩
  unfold decode at h
  split at h
  · cases h
  next b rest =>
    split at h
    case h_1 hb => exact ⟨rest, congrArg (· :: rest) (BitVec.eq_of_toNat_eq hb)⟩
    case h_2 => exact absurd h (decodeSendImage_ne_noOperation rest)
    case h_3 => exact absurd h (decodeRecvImage_ne_noOperation rest)
    case h_11 => exact absurd h (decodeFrameImage_ne_noOperation rest)
    all_goals cases h

/-! ### The obligations -/

/-- Settles O1: a FRAME row by the frame it is encoded as, a SEND and a RECV by their operand fields, every other instruction
by its selector byte. -/
theorem decodeInvertsEncode : Obligations.DecodeInvertsEncode := by
  intro i rest hwf
  cases hi : commandFrame i with
  | some frame =>
    obtain ⟨code, p⟩ := frame
    obtain ⟨hencode, hwell, command, hcode, rfl⟩ := commandFrame_some hi
    rw [hencode]
    exact decode_encodeFrame hcode (of_decide_eq_true (hwell ▸ hwf)) rest
  | none =>
    cases i with
    | send cmd p => exact decode_encode_send cmd (of_decide_eq_true hwf) rest
    | recv cap => exact decode_encode_recv (of_decide_eq_true hwf) rest
    | cancel | decTag | decFwString | decFwU32 | decAuth | decReadBlock | decReadValue => rfl
    | _ => cases hi

/-- Settles O3: the reserved byte and the command byte are all a frame image is judged by, once its body is long enough for
every length byte. -/
theorem frameImageMatchedByMask : Obligations.FrameImageMatchedByMask := by
  intro rsvd len code body hbody
  have hcodes := exists_commandOf_iff code
  constructor
  · rintro ⟨i, rest, h⟩
    obtain ⟨hrsvd, hcommand⟩ := decodeFrameImage_ok h
    exact ⟨hrsvd, hcodes.1 hcommand⟩
  · rintro ⟨rfl, hmem⟩
    obtain ⟨command, hcommand⟩ := hcodes.2 hmem
    obtain ⟨⟨i, rest⟩, h⟩ := decodeFrameImage_of_long_body len hcommand hbody
    exact ⟨i, rest, h⟩

/-- Settles O4: the three frames are the images of their commands; the table word, whose checksum byte is 0, and the selectors
are run through the decoder. -/
theorem writtenOutWordsDecode : Obligations.WrittenOutWordsDecode := by
  have hframe : ∀ i : Instr, i.wellFormed = true → decode (encode i) = .ok (i, []) := fun i hwf => by
    simpa using decodeInvertsEncode i [] hwf
  exact ⟨hframe (.getFirmware []) rfl, hframe (.readBlock [0x04#8]) rfl,
    hframe (.authenticate [0x04#8, 0xAA#8, 0xFF#8, 0xFF#8, 0xFF#8, 0xFF#8, 0xFF#8, 0xFF#8]) rfl, rfl, rfl, rfl, rfl⟩

end Sys2Proof.Machine
end

section
/-! PROOFS. The host's turn: what becomes of a presented image, of a step of an exchange, and of a table word; and what the
named exchanges present. -/

namespace Sys2Proof.Machine

/-! ### A presented image -/

section
variable {s : State} {image rest : List Byte} {queue : List HostMove} {i : Instr}

/-- While the block is busy every instruction but CANCEL is held off (R90; log 8). -/
theorem exec_busy (hi : i ≠ .cancel) (hs : s.seq ≠ .idle) : exec i s = .next s := by
  rcases exec_cases i s with ⟨-, -, e⟩ | ⟨h, -⟩ | ⟨h, -⟩ | ⟨h, -⟩ | ⟨h, -⟩
  · exact e
  all_goals contradiction

theorem presentRequest_taken (hd : decode image = .ok (i, rest)) (h : i = .cancel ∨ s.seq = .idle) :
    presentRequest image queue s = exec i { s with hostQueue := queue } := by
  simp only [presentRequest, hd, State.fetched_taken queue h]

theorem presentRequest_held (hd : decode image = .ok (i, rest)) (hi : i ≠ .cancel) (hs : s.seq ≠ .idle) :
    presentRequest image queue s = .next s := by
  simp only [presentRequest, hd, State.fetched_held queue hi hs, exec_busy hi hs]

theorem presentRequest_noOperation (hd : decode image = .error .noOperation) :
    presentRequest image queue s = .next { s with hostQueue := queue } := by
  simp only [presentRequest, hd]

theorem presentRequest_error {e : DecodeError} (he : e ≠ .noOperation) (hd : decode image = .error e) :
    presentRequest image queue s = .refused (.badRequest e) := by
  cases e with
  | noOperation => exact absurd rfl he
  | _ => simp only [presentRequest, hd]

/-! ### A host turn as a step -/

theorem step_host (ha : s.nextAgent = .host) : step s = hostTurn s.tick := by
  rw [step, ha]; rfl

theorem step_host_nil (ha : s.nextAgent = .host) (hq : s.hostQueue = []) : step s = .next s.tick := by
  simp only [step_host ha, hostTurn, State.tick_hostQueue, hq]

theorem step_host_present (ha : s.nextAgent = .host) (hq : s.hostQueue = .present image :: queue) :
    step s = presentRequest image queue s.tick := by
  simp only [step_host ha, hostTurn, State.tick_hostQueue, hq]

theorem step_host_presentIfOk (ha : s.nextAgent = .host) (hq : s.hostQueue = .presentIfOk image :: queue) :
    step s = if s.busy then .next s.tick else if s.resCode.isSuccess then presentRequest image queue s.tick
      else .next { s.tick with hostQueue := queue } := by
  simp only [step_host ha, hostTurn, State.tick_hostQueue, hq]
  rfl

end

theorem ResCode.isSuccess_iff (c : ResCode) : c.isSuccess = true ↔ c = .ok ∨ c = .sent := by
  cases c <;> simp [isSuccess]

/-- A table word that decodes to an instruction is an image of it. -/
theorem decodeTableWord_some {nbits w : Nat} {i : Instr} (h : decodeTableWord nbits w = some i) :
    ∃ rest, decode (tableWordImage nbits w) = .ok (i, rest) := by
  unfold decodeTableWord at h
  split at h <;> cases h
  exact ⟨_, ‹_›⟩

/-! ### The obligations -/

/-- Settles O52: by what the image decodes to. -/
theorem stepRunsPresentedInstruction : Obligations.StepRunsPresentedInstruction := by
  refine ⟨fun s image queue ha hq => ?_, decode_noOperation_iff, fun s => step_host_nil⟩
  rw [step_host_present ha hq]
  exact ⟨fun i rest hd => ⟨presentRequest_taken (s := s.tick) hd, presentRequest_held (s := s.tick) hd⟩,
    presentRequest_noOperation, fun e => presentRequest_error⟩

/-- Settles O53: the word is presented with the host's turn next, so the step takes back all that storing it added. -/
theorem fetchedTableWordRuns : Obligations.FetchedTableWordRuns := by
  intro s nbits w i h hs
  obtain ⟨rest, hd⟩ := decodeTableWord_some h
  have hidle : (s.withFetchWord nbits w).tick.seq = .idle := hs
  rw [step_host_present (queue := s.hostQueue) rfl rfl, presentRequest_taken hd (.inr hidle)]
  rfl

/-- Settles O54: by whether the block is busy and by the outcome of the operation before. -/
theorem exchangeStepOnlyAfterSuccess : Obligations.ExchangeStepOnlyAfterSuccess := by
  intro s image queue ha hq
  rw [step_host_presentIfOk ha hq]
  refine ⟨fun hs => ?_, fun hs hok hsent => ?_, fun hs hsuccess => ?_⟩
  · rw [if_pos (s.busy_eq_true.2 hs)]
    rfl
  · have hfailed : ¬ s.resCode.isSuccess = true := by simp [ResCode.isSuccess_iff, hok, hsent]
    rw [if_neg (by simp [hs]), if_neg hfailed]
    rfl
  · rw [if_neg (by simp [hs]), if_pos (s.resCode.isSuccess_iff.2 hsuccess)]
    exact ⟨fun i rest hd => presentRequest_taken hd (.inr hs), presentRequest_noOperation,
      fun e => presentRequest_error⟩

/-- Settles O51: an exchange presents the SEND, the RECV and the decoder of R78; a tag read appends the SEND RESET exactly
when the policy is true. -/
theorem tagReadFollowedByResetByPolicy : Obligations.TagReadFollowedByResetByPolicy := by
  have happend : ∀ moves resetPayload, moves ++ postReadReset false resetPayload = moves := fun moves _ =>
    List.append_nil moves
  refine ⟨fun _ _ _ _ => rfl, fun _ _ => ⟨rfl, rfl, fun _ => ⟨rfl, rfl⟩, fun _ _ _ _ _ _ _ _ => rfl⟩,
    fun p r cap => ⟨rfl, rfl, happend _ r, happend _ r⟩, fun _ => rfl⟩

end Sys2Proof.Machine
end

section
/-! PROOFS. The decoder as a function (R105): what it answers for each shape of the bytes that follow the first header, that
these shapes are all there are, and what follows for frames sent through garbage or with a byte changed. -/

namespace Sys2Proof.Machine

/-! ### One rule per step of R105 -/

section
variable {c len ce : Byte} {cap i : Nat} {g p rest body : List Byte} {ck b : Byte}

/-- Step 1: bytes before the first header are skipped and counted. -/
theorem decodeFrame_of_header (hg : header ∉ g) :
    decodeFrame c cap (g ++ header :: rest) = decodeReserved c cap (g.length + 1) rest := by
  have hhunt : huntHeader (g ++ header :: rest) 0 = some (g.length + 1, rest) := by
    simp [huntHeader_skip g (header :: rest) 0 hg, huntHeader]
  rw [decodeFrame, hhunt]

theorem decodeFrame_of_no_header {bytes : List Byte} (h : header ∉ bytes) : decodeFrame c cap bytes = .blocked := by
  rw [decodeFrame, huntHeader_none.2 h]

theorem decodeReserved_bad (hb : b ≠ reservedByte) :
    decodeReserved c cap i (b :: rest) = .error .framingError (i + 1) := if_pos hb

theorem decodeReserved_zero : decodeReserved c cap i (reservedByte :: rest) = decodeLength c cap (i + 1) rest := by
  rw [decodeReserved, if_neg (not_not_intro rfl)]

theorem decodeLength_zero (hlen : len.toNat = 0) :
    decodeLength c cap i (len :: rest) = .error .framingError (i + 1) := if_pos hlen

theorem exceedsCapacity_iff : exceedsCapacity len cap = true ↔ cap + 1 < len.toNat := by
  rw [exceedsCapacity, decide_eq_true_iff]
  omega

theorem decodeLength_over (hlen : cap + 1 < len.toNat) :
    decodeLength c cap i (len :: rest) = .error .capacityError (i + 1) :=
  (if_neg (by omega)).trans (if_pos (exceedsCapacity_iff.2 hlen))

theorem decodeLength_no_echo (hpos : len.toNat ≠ 0) (hcap : len.toNat ≤ cap + 1) :
    decodeLength c cap i [len] = .blocked := by
  rw [decodeLength, if_neg hpos, if_neg (by rw [exceedsCapacity_iff]; omega)]

theorem decodeLength_echo (hpos : len.toNat ≠ 0) (hcap : len.toNat ≤ cap + 1) :
    decodeLength c cap i (len :: ce :: body) = decodeBody c len ce (i + 2) body := by
  rw [decodeLength, if_neg hpos, if_neg (by rw [exceedsCapacity_iff]; omega)]

theorem decodeBody_short (hbody : body.length < len.toNat) :
    decodeBody c len ce i body = .blocked := by
  rw [decodeBody, List.drop_eq_nil_of_le (by omega)]

/-- Steps 6 to 8 once the whole payload `p` and the checksum byte `ck` are there. -/
theorem decodeBody_whole (hlen : len.toNat = p.length + 1) :
    decodeBody c len ce i (p ++ ck :: rest) =
      if ce ≠ c then .error .correlationError (p.length + i + 1)
      else if ck ≠ checksum len ce p then .error .checksumError (p.length + i + 1)
      else .ok ce p (p.length + i + 1) := by
  have hconsumed : i + (p.length + 1) = p.length + i + 1 := by omega
  simp [decodeBody, hlen, hconsumed, echoMismatch]

theorem decodeBody_mismatch (hlen : len.toNat = p.length + 1) (hce : ce ≠ c) :
    decodeBody c len ce i (p ++ ck :: rest) = .error .correlationError (p.length + i + 1) := by
  rw [decodeBody_whole hlen, if_pos hce]

theorem decodeBody_bad_checksum (hlen : len.toNat = p.length + 1) (hck : ck ≠ checksum len c p) :
    decodeBody c len c i (p ++ ck :: rest) = .error .checksumError (p.length + i + 1) := by
  rw [decodeBody_whole hlen, if_neg (not_not_intro rfl), if_pos hck]

theorem decodeBody_ok (hlen : len.toNat = p.length + 1) :
    decodeBody c len c i (p ++ checksum len c p :: rest) = .ok c p (p.length + i + 1) := by
  rw [decodeBody_whole hlen, if_neg (not_not_intro rfl), if_neg (not_not_intro rfl)]

/-- Bytes enough for the payload and the checksum that a length byte announces are such a payload and checksum. -/
theorem exists_payload_of_length_le (hpos : len.toNat ≠ 0) (hbody : len.toNat ≤ body.length) :
    ∃ p ck rest, body = p ++ ck :: rest ∧ len.toNat = p.length + 1 := by
  have hn : len.toNat - 1 < body.length := by omega
  refine ⟨body.take (len.toNat - 1), body[len.toNat - 1], body.drop (len.toNat - 1 + 1), ?_, ?_⟩
  · rw [← List.drop_eq_getElem_cons hn, List.take_append_drop]
  · rw [List.length_take_of_le hn.le]
    omega

/-- After the garbage `g`, a header, a reserved byte, a length byte that is accepted and an echo. -/
theorem decodeFrame_of_echo (hg : header ∉ g) (hpos : len.toNat ≠ 0) (hcap : len.toNat ≤ cap + 1) :
    decodeFrame c cap (g ++ header :: reservedByte :: len :: ce :: body) =
      decodeBody c len ce (g.length + 4) body := by
  rw [decodeFrame_of_header hg, decodeReserved_zero, decodeLength_echo hpos hcap]

theorem decodeFrame_bad_reserved (hg : header ∉ g) (hb : b ≠ reservedByte) :
    decodeFrame c cap (g ++ header :: b :: rest) = .error .framingError (g.length + 2) :=
  (decodeFrame_of_header hg).trans (decodeReserved_bad hb)

theorem decodeFrame_zero_length (hg : header ∉ g) (hlen : len.toNat = 0) :
    decodeFrame c cap (g ++ header :: reservedByte :: len :: rest) = .error .framingError (g.length + 3) := by
  rw [decodeFrame_of_header hg, decodeReserved_zero, decodeLength_zero hlen]

theorem decodeFrame_over_capacity (hg : header ∉ g) (hlen : cap + 1 < len.toNat) :
    decodeFrame c cap (g ++ header :: reservedByte :: len :: rest) = .error .capacityError (g.length + 3) := by
  rw [decodeFrame_of_header hg, decodeReserved_zero, decodeLength_over hlen]

end

/-! ### Every shape of the bytes, and the answer to it -/

/-- What the decoder answers, with `g` bytes skipped, to the bytes that follow the first header. -/
inductive HeaderDecode (c : Byte) (cap g : Nat) : List Byte → FrameResult → Prop
  | noReserved : HeaderDecode c cap g [] .blocked
  | badReserved {b : Byte} (rest : List Byte) (hb : b ≠ reservedByte) :
      HeaderDecode c cap g (b :: rest) (.error .framingError (g + 2))
  | noLength : HeaderDecode c cap g [reservedByte] .blocked
  | zeroLength {len : Byte} (rest : List Byte) (hlen : len.toNat = 0) :
      HeaderDecode c cap g (reservedByte :: len :: rest) (.error .framingError (g + 3))
  | overCapacity {len : Byte} (rest : List Byte) (hlen : cap + 1 < len.toNat) :
      HeaderDecode c cap g (reservedByte :: len :: rest) (.error .capacityError (g + 3))
  | noEcho (len : Byte) : HeaderDecode c cap g [reservedByte, len] .blocked
  | short {len ce : Byte} {body : List Byte} (hbody : body.length < len.toNat) :
      HeaderDecode c cap g (reservedByte :: len :: ce :: body) .blocked
  | mismatch {len ce ck : Byte} {p : List Byte} (rest : List Byte) (hlen : len.toNat = p.length + 1) (hce : ce ≠ c) :
      HeaderDecode c cap g (reservedByte :: len :: ce :: (p ++ ck :: rest)) (.error .correlationError (g + p.length + 5))
  | badChecksum {len ck : Byte} {p : List Byte} (rest : List Byte) (hlen : len.toNat = p.length + 1) :
      HeaderDecode c cap g (reservedByte :: len :: c :: (p ++ ck :: rest)) (.error .checksumError (g + p.length + 5))
  | ok {len ck : Byte} {p : List Byte} (rest : List Byte) (hlen : len.toNat = p.length + 1) (hcap : p.length ≤ cap) :
      HeaderDecode c cap g (reservedByte :: len :: c :: (p ++ ck :: rest)) (.ok c p (g + p.length + 5))

section
variable {c : Byte} {cap g : Nat}

theorem decodeBody_answers {len : Byte} (ce : Byte) (body : List Byte) (hpos : len.toNat ≠ 0)
    (hcap : len.toNat ≤ cap + 1) :
    HeaderDecode c cap g (reservedByte :: len :: ce :: body) (decodeBody c len ce (g + 4) body) := by
  rcases Nat.lt_or_ge body.length len.toNat with hbody | hbody
  · rw [decodeBody_short hbody]
    exact .short hbody
  · obtain ⟨p, ck, rest, rfl, hlen⟩ := exists_payload_of_length_le hpos hbody
    have hconsumed : p.length + (g + 4) + 1 = g + p.length + 5 := by omega
    rw [decodeBody_whole hlen, hconsumed]
    split
    · exact .mismatch rest hlen ‹_›
    next hce =>
      obtain rfl : ce = c := not_not.1 hce
      split
      · exact .badChecksum rest hlen
      · exact .ok rest hlen (by omega)

theorem decodeLength_answers (bytes : List Byte) :
    HeaderDecode c cap g (reservedByte :: bytes) (decodeLength c cap (g + 2) bytes) := by
  cases bytes with
  | nil => exact .noLength
  | cons len rest =>
    rcases Nat.eq_zero_or_pos len.toNat with hzero | hpos
    · rw [decodeLength_zero hzero]
      exact .zeroLength rest hzero
    rcases Nat.lt_or_ge (cap + 1) len.toNat with hover | hcap
    · rw [decodeLength_over hover]
      exact .overCapacity rest hover
    cases rest with
    | nil =>
      rw [decodeLength_no_echo hpos.ne' hcap]
      exact .noEcho len
    | cons ce body =>
      rw [decodeLength_echo hpos.ne' hcap]
      exact decodeBody_answers ce body hpos.ne' hcap

theorem decodeReserved_answers (bytes : List Byte) :
    HeaderDecode c cap g bytes (decodeReserved c cap (g + 1) bytes) := by
  cases bytes with
  | nil => exact .noReserved
  | cons b rest =>
    by_cases hb : b = reservedByte
    · rw [hb, decodeReserved_zero]
      exact decodeLength_answers rest
    · rw [decodeReserved_bad hb]
      exact .badReserved rest hb

end

/-- Everything the decoder can answer: it waits for a header, or answers to what follows the first one. -/
theorem decodeFrame_cases (c : Byte) (cap : Nat) (bytes : List Byte) :
    (header ∉ bytes ∧ decodeFrame c cap bytes = .blocked) ∨
    (∃ g rest, header ∉ g ∧ bytes = g ++ header :: rest ∧ HeaderDecode c cap g.length rest (decodeFrame c cap bytes)) := by
  cases hhunt : huntHeader bytes 0 with
  | none => exact .inl ⟨huntHeader_none.1 hhunt, by rw [decodeFrame, hhunt]⟩
  | some found =>
    obtain ⟨g, hg, rfl, -⟩ := huntHeader_some hhunt
    refine .inr ⟨g, found.2, hg, rfl, ?_⟩
    rw [decodeFrame_of_header hg]
    exact decodeReserved_answers found.2

/-! ### Where a frame starts -/

/-- The answer when `k` bytes were consumed before. -/
def FrameResult.after (k : Nat) : FrameResult → FrameResult
  | .blocked => .blocked
  | .ok echo p n => .ok echo p (k + n)
  | .error e n => .error e (k + n)

theorem decodeBody_after (c len ce : Byte) (k i : Nat) (body : List Byte) :
    decodeBody c len ce (k + i) body = (decodeBody c len ce i body).after k := by
  unfold decodeBody
  split
  · rfl
  · split
    · rw [FrameResult.after, Nat.add_assoc]
    · split <;> rw [FrameResult.after, Nat.add_assoc]

theorem decodeLength_after (c : Byte) (cap k i : Nat) (bytes : List Byte) :
    decodeLength c cap (k + i) bytes = (decodeLength c cap i bytes).after k := by
  unfold decodeLength
  split
  · rfl
  · split
    · rfl
    · split
      · rfl
      · split
        · rfl
        · exact decodeBody_after c _ _ k (i + 2) _

/-! ### A byte changed in a frame -/

theorem encodeFrame_append (c : Byte) (p tail : List Byte) :
    encodeFrame c p ++ tail =
      header :: reservedByte :: lengthByte p.length :: c :: (p ++ checksum (lengthByte p.length) c p :: tail) := by
  simp [encodeFrame]

/-- The checksum moves with every byte of the payload (R66). -/
theorem checksum_ne_of_byte_ne (len c : Byte) (front back : List Byte) {b v : Byte} (h : v ≠ b) :
    checksum len c (front ++ v :: back) ≠ checksum len c (front ++ b :: back) := by
  intro e
  have hmod := congrArg BitVec.toNat e
  have hbytes : v.toNat ≠ b.toNat := fun hn => h (BitVec.eq_of_toNat_eq hn)
  simp only [checksum, BitVec.toNat_ofNat, byteSum_append, byteSum_cons] at hmod
  omega

theorem checksum_set_ne (len c : Byte) {p : List Byte} {k : Nat} {b v : Byte} (hb : p[k]? = some b) (h : v ≠ b) :
    checksum len c p ≠ checksum len c (p.set k v) := by
  obtain ⟨hk, rfl⟩ := List.getElem?_eq_some_iff.1 hb
  have hsplit : p = p.take k ++ p[k] :: p.drop (k + 1) := by
    rw [← List.drop_eq_getElem_cons hk, List.take_append_drop]
  rw [List.set_eq_take_append_cons_drop, if_pos hk]
  intro e
  exact checksum_ne_of_byte_ne len c (p.take k) (p.drop (k + 1)) h (by rw [← e, ← hsplit])

/-- A body read with the right echo: the block waits, or finds a checksum error, or answers a payload as long as the length
byte announces. -/
theorem decodeBody_matching {c len : Byte} (i : Nat) (body : List Byte) (hpos : len.toNat ≠ 0) :
    decodeBody c len c i body = .blocked ∨ (∃ n, decodeBody c len c i body = .error .checksumError n) ∨
    (∃ q n, len.toNat = q.length + 1 ∧ decodeBody c len c i body = .ok c q n) := by
  rcases Nat.lt_or_ge body.length len.toNat with hbody | hbody
  · exact .inl (decodeBody_short hbody)
  · obtain ⟨p, ck, rest, rfl, hlen⟩ := exists_payload_of_length_le hpos hbody
    by_cases hck : ck = checksum len c p
    · subst hck
      exact .inr (.inr ⟨p, _, hlen, decodeBody_ok hlen⟩)
    · exact .inr (.inl ⟨_, decodeBody_bad_checksum hlen hck⟩)

section
variable {p : List Byte} {cap : Nat} (tail : List Byte)

/-- The frame of `p`, its length byte replaced by one that is accepted. -/
theorem decodeFrame_length_changed {c v : Byte} (hpos : v.toNat ≠ 0) (hcap : v.toNat ≤ cap + 1) :
    decodeFrame c cap ((encodeFrame c p).set 2 v ++ tail) =
      decodeBody c v c 4 (p ++ checksum (lengthByte p.length) c p :: tail) := by
  have h := decodeFrame_of_echo (c := c) (ce := c) (g := [])
    (body := p ++ checksum (lengthByte p.length) c p :: tail) List.not_mem_nil hpos hcap
  simpa [encodeFrame] using h

/-- The frame of `p`, whatever its echo, payload and checksum bytes were replaced by. -/
theorem decodeFrame_body_changed (hp : p.length ≤ maxPayload) (hcap : p.length ≤ cap) (c ce ck : Byte) {q : List Byte}
    (hq : q.length = p.length) :
    decodeFrame c cap (header :: reservedByte :: lengthByte p.length :: ce :: (q ++ ck :: tail)) =
      decodeBody c (lengthByte p.length) ce 4 (q ++ ck :: tail) := by
  have hlen := lengthByte_toNat hp
  exact decodeFrame_of_echo (g := []) List.not_mem_nil (by omega) (by omega)

end

/-! ### The obligations -/

/-- Settles O31: the hunt skips `g`; then the rules of the reserved byte, of the length byte and of a whole body. -/
theorem resyncOverGarbage : Obligations.ResyncOverGarbage := by
  intro g hg
  refine ⟨fun c p tail cap hp hcap => ?_, fun c b rest cap hb => ?_, fun c rest cap => ?_⟩
  · have hlen := lengthByte_toNat hp
    rw [List.append_assoc, encodeFrame_append, decodeFrame_of_echo hg (by omega) (by omega), decodeBody_ok hlen]
    congr 1
    omega
  · exact decodeFrame_bad_reserved hg hb
  · have hhere : decodeFrame c cap (0xFF#8 :: 0x00#8 :: rest) = decodeLength c cap 2 rest :=
      (decodeFrame_of_header (g := []) List.not_mem_nil).trans decodeReserved_zero
    have hthere : decodeFrame c cap (g ++ 0xFF#8 :: 0x00#8 :: rest) = decodeLength c cap (g.length + 2) rest :=
      (decodeFrame_of_header hg).trans decodeReserved_zero
    rw [hthere, hhere, decodeLength_after]
    cases decodeLength c cap 2 rest <;> rfl

/-- Settles O29: a frame with nothing before it is a frame behind no garbage. -/
theorem decodeEncodeRoundTrip : Obligations.DecodeEncodeRoundTrip := by
  intro c p tail cap hp hcap
  obtain ⟨hframe, -⟩ := resyncOverGarbage [] List.not_mem_nil
  simpa using hframe c p tail cap hp hcap

/-- Settles O30: the changed byte decides at which step of R105 the decode ends; a payload byte and the checksum byte by the
checksum no longer agreeing. -/
theorem singleByteCorruption : Obligations.SingleByteCorruption := by
  refine ⟨by decide, fun c p tail cap hp hcap => ?_⟩
  have hlen := lengthByte_toNat hp
  refine ⟨fun v hv => ?_, ?_, fun v hv => ?_, fun v hne hv hvcap => ?_, fun v hv => ?_, fun k b v hb hv => ?_,
    fun v hv => ?_⟩
  · exact decodeFrame_bad_reserved (g := []) List.not_mem_nil hv
  · exact decodeFrame_zero_length (g := []) List.not_mem_nil rfl
  · exact decodeFrame_over_capacity (g := []) List.not_mem_nil hv
  · have hpos : v.toNat ≠ 0 := fun h => hv (BitVec.eq_of_toNat_eq h)
    rw [decodeFrame_length_changed tail hpos hvcap]
    rcases decodeBody_matching 4 (p ++ checksum (lengthByte p.length) c p :: tail) hpos with h | h | ⟨q, n, hq, h⟩
    · exact .inl h
    · exact .inr (.inl h)
    · refine .inr (.inr ⟨q, n, ?_, h⟩)
      rintro rfl
      exact hne (BitVec.eq_of_toNat_eq (hq.trans hlen.symm))
  · have h := decodeFrame_body_changed tail hp hcap c v (checksum (lengthByte p.length) c p) rfl
    rw [decodeBody_mismatch hlen hv] at h
    simpa [encodeFrame] using h
  · have hset := p.length_set (i := k) (a := v)
    have hbad := checksum_set_ne (lengthByte p.length) c hb hv
    have h := decodeFrame_body_changed tail hp hcap c c (checksum (lengthByte p.length) c p) hset
    rw [decodeBody_bad_checksum (by rw [hset, hlen]) hbad, hset] at h
    obtain ⟨hk, -⟩ := List.getElem?_eq_some_iff.1 hb
    simpa [encodeFrame, Nat.add_comm 4, List.set_append_left _ _ hk] using h
  · have h := decodeFrame_body_changed tail hp hcap c c v rfl
    rw [decodeBody_bad_checksum hlen hv] at h
    simpa [encodeFrame, Nat.add_comm 4] using h

/-- Settles O32: after the echo by whether the body is whole; the inversion gives every `Ok` its echo. -/
theorem wrongEchoNeverAccepted : Obligations.WrongEchoNeverAccepted := by
  refine ⟨fun c len ce g rest cap hg hlen hcap hce => ?_, fun c ce bytes p cap n h => ?_, fun c g rest cap hg =>
    ⟨fun b hb => ?_, ?_, fun len hlen => ?_⟩⟩
  · have hpos : len.toNat ≠ 0 := fun h => hlen (BitVec.eq_of_toNat_eq h)
    refine (decodeFrame_of_echo hg hpos (by omega)).trans ?_
    split
    · exact decodeBody_short ‹_›
    · obtain ⟨p, ck, after, rfl, hp⟩ := exists_payload_of_length_le hpos (Nat.not_lt.1 ‹_›)
      rw [decodeBody_mismatch hp hce]
      congr 1
      omega
  · rcases decodeFrame_cases c cap bytes with ⟨-, e⟩ | ⟨g, rest, -, -, hd⟩
    · cases e.symm.trans h
    · rw [h] at hd
      cases hd
      rfl
  · exact decodeFrame_bad_reserved hg hb
  · exact decodeFrame_zero_length hg rfl
  · exact decodeFrame_over_capacity hg hlen

/-- The bytes before the first header, counted as the obligation counts them. -/
theorem takeWhile_ne_header {g rest : List Byte} (hg : header ∉ g) :
    (g ++ header :: rest).takeWhile (fun b => decide (b ≠ header)) = g := by
  have hall : ∀ b ∈ g, decide (b ≠ header) = true := fun b hb => decide_eq_true fun e => hg (e ▸ hb)
  rw [List.takeWhile_append_of_pos hall]
  simp

theorem getD_after_garbage (g rest : List Byte) (k : Nat) (d : Byte) :
    (g ++ rest).getD (g.length + k) d = rest.getD k d := by
  rw [List.getD_append_right _ _ _ _ (Nat.le_add_right ..), Nat.add_sub_cancel_left]

/-- Settles O33: by the inversion, each answer's count read off the shape of the bytes. -/
theorem bytesConsumedByOutcome : Obligations.BytesConsumedByOutcome := by
  intro c cap bytes g len hcount hlen
  rcases decodeFrame_cases c cap bytes with ⟨hbytes, e⟩ | ⟨skipped, rest, hg, rfl, hd⟩
  · have hall : bytes.takeWhile (fun b => decide (b ≠ header)) = bytes :=
      List.takeWhile_eq_self_iff.2 fun b hb => decide_eq_true fun (e : b = header) => hbytes (e ▸ hb)
    have hg : g = bytes.length := hcount.trans (congrArg List.length hall)
    rw [e]
    exact .inl (by omega)
  · obtain rfl : g = skipped.length := hcount.trans (congrArg List.length (takeWhile_ne_header hg))
    rw [getD_after_garbage] at hlen
    simp only [getD_after_garbage]
    generalize decodeFrame c cap (skipped ++ header :: rest) = r at hd
    cases hd with
    | noReserved | noLength | noEcho =>
      exact .inr (by simp only [List.length_append, List.length_cons, List.length_nil]; omega)
    | badReserved rest hb => exact ⟨by simp, .inl ⟨rfl, hb⟩⟩
    | zeroLength rest hzero => exact ⟨by simp, .inr ⟨rfl, hlen.trans hzero⟩⟩
    | overCapacity rest hover => exact ⟨by simp, rfl, hover.trans_eq hlen.symm⟩
    | short hbody =>
      have hbody := hbody.trans_eq hlen.symm
      exact .inr (by simp only [List.length_append, List.length_cons]; omega)
    | mismatch rest hp hce =>
      have hlen := hlen.trans hp
      exact ⟨by simp only [List.length_append, List.length_cons]; omega, by omega, hce⟩
    | badChecksum rest hp =>
      have hlen := hlen.trans hp
      exact ⟨by simp only [List.length_append, List.length_cons]; omega, by omega, rfl⟩
    | ok rest hp hcap =>
      have hlen := hlen.trans hp
      exact ⟨by omega, by simp only [List.length_append, List.length_cons]; omega, by omega, hcap⟩

end Sys2Proof.Machine
end

section
/-! PROOFS. The operations of the codec: what presenting a SEND, a RECV or a CANCEL does, one rule per move of the sequencer,
and the whole run of a SEND. -/

namespace Sys2Proof.Machine

/-! ### The moves of a SEND -/

section
variable {s t u : State} {b : Byte}

/-- The moves of a SEND are moves of the codec: `codecStep_next` the other way round. -/
theorem codecStep_of_transmitMove (hu : TransmitMove s b u) : codecStep s = .next (u.txWrite b) := by
  cases hu with
  | hdr hq | rsvd hq | len hq | cmd hq | csum hq => simp only [codecStep, hq]; rfl
  | pay hq hb => simp only [codecStep, hq, moveTxPay, hb]; rfl

/-- A transmit state that does not fault makes one of them. -/
theorem exists_transmitMove (hq : s.seq.isTransmit = true) (h : codecStep s = .next t) : ∃ b u, TransmitMove s b u := by
  cases hs : s.seq with
  | txHdr => exact ⟨_, _, .hdr hs⟩
  | txRsvd => exact ⟨_, _, .rsvd hs⟩
  | txLen => exact ⟨_, _, .len hs⟩
  | txCmd => exact ⟨_, _, .cmd hs⟩
  | txPay =>
    simp only [codecStep, hs, moveTxPay] at h
    split at h <;> cases h
    exact ⟨_, _, .pay hs ‹_›⟩
  | txCsum => exact ⟨_, _, .csum hs⟩
  | _ => rw [hs] at hq; cases hq

/-- A move of a SEND is the same move whatever `RXS` holds. -/
theorem TransmitMove.with_rxs (hu : TransmitMove s b u) (r : List Byte) :
    TransmitMove { s with rxs := r } b { u with rxs := r } := by
  cases hu with
  | hdr hq => exact .hdr hq
  | rsvd hq => exact .rsvd hq
  | len hq => exact .len hq
  | cmd hq => exact .cmd hq
  | pay hq hb => exact .pay hq hb
  | csum hq => exact .csum hq

end

/-! ### The moves of a RECV -/

section
variable {s : State} {b : Byte} {rest : List Byte}

theorem codecStep_rxSettle (hq : s.seq = .rxSettle) :
    codecStep s = if s.settlePending then .next s else .next (s.goTo .rxHunt) := by
  simp only [codecStep, hq]; rfl

theorem codecStep_rxHunt (hq : s.seq = .rxHunt) (hr : s.rxs = b :: rest) :
    codecStep s = .next (({ s with rxs := rest } : State).goTo (if b = header then .rxRsvd else .rxHunt)) := by
  simp only [codecStep, hq]
  exact State.rxRead_cons _ hr

theorem codecStep_rxRsvd (hq : s.seq = .rxRsvd) (hr : s.rxs = b :: rest) :
    codecStep s = .next (if b = reservedByte then ({ s with rxs := rest } : State).goTo .rxLen
      else ({ s with rxs := rest } : State).raise .framingError) := by
  simp only [codecStep, hq]
  exact State.rxRead_cons _ hr

theorem codecStep_rxLen (hq : s.seq = .rxLen) (hr : s.rxs = b :: rest) :
    codecStep s = .next (if b.toNat = 0 then ({ s with rxs := rest, rxLen := b } : State).raise .framingError
      else if exceedsCapacity b s.rxCap then ({ s with rxs := rest, rxLen := b } : State).raise .capacityError
      else ({ s with rxs := rest, rxLen := b } : State).goTo .rxCmd) := by
  simp only [codecStep, hq]
  exact State.rxRead_cons _ hr

theorem codecStep_rxCmd (hq : s.seq = .rxCmd) (hr : s.rxs = b :: rest) :
    codecStep s = .next { s with
      rxs := rest
      rxCmd := b
      rxMismatch := echoMismatch b s.lastCmd
      rxAcc := s.rxLen + b
      rxIdx := 0x00#8
      seq := if 0 < s.rxLen.toNat - 1 then .rxPay else .rxCsum } := by
  simp only [codecStep, hq]
  exact State.rxRead_cons _ hr

/-- Inside the capacity, or with nothing to store, the payload move does not fault (R56). -/
theorem codecStep_rxPay (hq : s.seq = .rxPay) (hr : s.rxs = b :: rest)
    (hcap : s.rxMismatch = false → s.rxIdx.toNat < s.rxCap) :
    codecStep s = .next { s with
      rxs := rest
      rxAcc := s.rxAcc + b
      rxBuf := if s.rxMismatch then s.rxBuf else Memory.write s.rxBuf s.rxIdx.toNat b
      rxIdx := s.rxIdx + 1#8
      seq := if s.rxIdx.toNat + 1 = s.rxLen.toNat - 1 then .rxCsum else .rxPay } := by
  simp only [codecStep, hq]
  exact (State.rxRead_cons _ hr).trans (if_neg fun h => absurd (hcap h.1) (Nat.not_lt.2 h.2))

theorem codecStep_rxCsum (hq : s.seq = .rxCsum) (hr : s.rxs = b :: rest) :
    codecStep s = .next (if s.rxMismatch then ({ s with rxs := rest } : State).raise .correlationError
      else if b ≠ s.rxAcc then ({ s with rxs := rest } : State).raise .checksumError
      else ({ s with rxs := rest } : State).endOk) := by
  simp only [codecStep, hq]
  exact State.rxRead_cons _ hr

end

/-! ### Presenting an operation -/

section
variable {s : State}

theorem exec_send_idle (hs : s.seq = .idle) (cmd : Byte) (p : List Byte) :
    exec (.send cmd p) s = .next (s.acceptSend cmd p) :=
  State.whenIdle_idle (fun s => .next (s.acceptSend cmd p)) hs

theorem exec_recv_idle (hs : s.seq = .idle) (cap : Nat) : exec (.recv cap) s = .next (s.acceptRecv cap) :=
  State.whenIdle_idle (fun s => .next (s.acceptRecv cap)) hs

theorem State.startReception_settling (hp : s.settlePending = true) (cap : Nat) :
    s.startReception cap = { s.discardPayload with rxCap := cap, seq := .rxSettle } := by
  rw [State.startReception, if_pos hp]

theorem State.startReception_hunting (hp : s.settlePending = false) (cap : Nat) :
    s.startReception cap = { s.discardPayload with rxCap := cap, seq := .rxHunt } := by
  rw [State.startReception, if_neg (by simp [hp])]

theorem exec_cancel : exec .cancel s = .next s.acceptCancel := rfl

end

/-! ### Whose turn it is -/

section
variable {s : State}

/-- While the schedule lasts a step is the turn of its head. -/
theorem step_scheduled {a : Agent} {rest : List Agent} (h : s.schedule = a :: rest) :
    step s = agentTurn a { s with schedule := rest } := by
  simp [step, State.nextAgent, State.tick, h]

/-- With the schedule exhausted the codec moves while it can, then the timer while it runs (log 3). -/
theorem step_exhausted (h : s.schedule = []) :
    step s = agentTurn (if s.codecEnabled then .codec else if s.settlePending then .timer else .codec) s := by
  have htick : s.tick = s := by rw [State.tick, h, List.tail_nil, ← h]
  simp [step, State.nextAgent, htick, h]

end

/-! ### A SEND run to its end (R93) -/

section
variable {s t u : State}

theorem codecMoves_succ (h : codecStep s = .next t) (n : Nat) : codecMoves (n + 1) s = codecMoves n t := by
  simp only [codecMoves, h]

theorem codecMoves_one (h : codecStep s = .next t) : codecMoves 1 s = .next t := codecMoves_succ h 0

theorem codecMoves_trans {m n : Nat} (h : codecMoves m s = .next t) (h' : codecMoves n t = .next u) :
    codecMoves (m + n) s = .next u := by
  induction m generalizing s with
  | zero => cases h; rwa [Nat.zero_add]
  | succ m ih =>
    cases hstep : codecStep s with
    | next v =>
      rw [codecMoves_succ hstep] at h
      rw [Nat.add_right_comm, codecMoves_succ hstep, ih h]
    | fault f => simp [codecMoves, hstep] at h
    | refused e => simp [codecMoves, hstep] at h

/-- The first four moves write the frame's head (R95 to R98). -/
theorem codecMoves_frameHead (hq : s.seq = .txHdr) :
    codecMoves 4 s = .next { s with
      txs := s.txs ++ [header, reservedByte, s.txLen, s.txCmd]
      seq := if 0 < s.txLen.toNat - 1 then .txPay else .txCsum } := by
  rw [codecMoves_succ (codecStep_of_transmitMove (.hdr hq)), codecMoves_succ (codecStep_of_transmitMove (.rsvd rfl)),
    codecMoves_succ (codecStep_of_transmitMove (.len rfl)), codecMoves_succ (codecStep_of_transmitMove (.cmd rfl))]
  simp [codecMoves, State.txWrite, State.goTo]

/-- The payload bytes still to be written, `rem`, are written unchanged and added up (R99). -/
theorem codecMoves_payload {rem : List Byte} (hq : s.seq = if 0 < rem.length then .txPay else .txCsum)
    (hrem : s.txBuf.drop s.txIdx.toNat = rem) (hfits : s.txBuf.length ≤ maxPayload)
    (hlen : s.txLen.toNat - 1 = s.txBuf.length) :
    codecMoves rem.length s = .next { s with
      txAcc := s.txAcc + BitVec.ofNat 8 (byteSum rem)
      txIdx := s.txIdx + BitVec.ofNat 8 rem.length
      txs := s.txs ++ rem
      seq := .txCsum } := by
  induction rem generalizing s with
  | nil =>
    simp only [List.length_nil, Nat.lt_irrefl, if_false] at hq
    simp [codecMoves, ← hq]
  | cons b rem ih =>
    have hq : s.seq = .txPay := hq
    have hb : s.txBuf[s.txIdx.toNat]? = some b := by
      rw [← List.head?_drop, hrem, List.head?_cons]
    have hcount : rem.length + 1 = s.txBuf.length - s.txIdx.toNat := by
      rw [← List.length_drop, hrem, List.length_cons]
    have hidx : (s.txIdx + 1#8).toNat = s.txIdx.toNat + 1 :=
      toNat_succ_of_lt (n := s.txBuf.length) (by omega) (Nat.lt_of_le_of_lt hfits (by decide))
    have hlast : s.txIdx.toNat + 1 = s.txLen.toNat - 1 ↔ ¬ 0 < rem.length := by omega
    have hnext : (if s.txIdx.toNat + 1 = s.txLen.toNat - 1 then Seq.txCsum else .txPay) =
        if 0 < rem.length then .txPay else .txCsum := by
      simp only [hlast, ite_not]
    have hacc : s.txAcc + b + BitVec.ofNat 8 (byteSum rem) = s.txAcc + BitVec.ofNat 8 (byteSum (b :: rem)) := by
      rw [byteSum_cons, BitVec.ofNat_add, BitVec.ofNat_toNat, BitVec.setWidth_eq, BitVec.add_assoc]
    have hend : s.txIdx + 1#8 + BitVec.ofNat 8 rem.length = s.txIdx + BitVec.ofNat 8 (rem.length + 1) := by
      rw [Nat.add_comm, BitVec.ofNat_add, BitVec.add_assoc]
    rw [List.length_cons, codecMoves_succ (codecStep_of_transmitMove (.pay hq hb))]
    refine Eq.trans (ih ?_ ?_ hfits hlen) ?_
    · exact hnext
    · simp only [State.txWrite_txBuf, State.txWrite_txIdx, hidx]
      rw [← List.drop_drop, hrem]
      rfl
    · rw [← hacc, ← hend]
      simp [State.txWrite]

/-- A frame that was started, run to its end: the head, the payload, and the checksum move (R95 to R100). -/
theorem codecMoves_startTransmission (s : State) (cmd : Byte) {p : List Byte} (hp : p.length ≤ maxPayload) :
    codecMoves (p.length + 5) (s.startTransmission cmd p) = .next { (s.startTransmission cmd p).endSent with
      txs := s.txs ++ encodeFrame cmd p
      txIdx := BitVec.ofNat 8 p.length
      txAcc := checksum (lengthByte p.length) cmd p
      settlePending := true } := by
  have hcount : (s.startTransmission cmd p).txLen.toNat - 1 = p.length := lengthByte_pred hp
  have hacc : BitVec.ofNat 8 (p.length + 1 + cmd.toNat) + BitVec.ofNat 8 (byteSum p) =
      checksum (lengthByte p.length) cmd p := by
    rw [checksum, lengthByte_toNat hp, BitVec.ofNat_add _ (byteSum p)]
  have hhead := codecMoves_frameHead (s := s.startTransmission cmd p) rfl
  rw [hcount] at hhead
  have hpayload := codecMoves_trans hhead (codecMoves_payload (rem := p) rfl rfl hp hcount)
  have hchecksum := codecMoves_trans hpayload (codecMoves_one (codecStep_of_transmitMove (.csum rfl)))
  have hmoves : p.length + 5 = 4 + p.length + 1 := by omega
  rw [hmoves, hchecksum]
  simp [State.txWrite, State.endSent, State.discardPayload, encodeFrame, hacc]

end

/-! ### The obligations -/

/-- Settles O6: four moves write the head, one each a payload byte, and the last the checksum. -/
theorem sendAppendsEncodedFrame : Obligations.SendAppendsEncodedFrame := by
  intro s cmd p hs hp
  have haccept : s.acceptSend cmd p = (s.recordCommand cmd).startTransmission cmd p := if_neg (Nat.not_lt.2 hp)
  have hacc : checksum (lengthByte p.length) cmd p =
      BitVec.ofNat 8 (p.length + 1 + cmd.toNat + (p.map BitVec.toNat).sum) := by
    rw [checksum, lengthByte_toNat hp, byteSum]
  refine ⟨_, _, (exec_send_idle hs cmd p).trans (congrArg _ haccept), codecMoves_startTransmission _ cmd hp, ?_, ?_⟩
  · rw [encodeFrame, ← hacc, hs]
    rfl
  · rw [List.length_append, encodeFrame_length]
    rfl

/-- Settles O22: the rule of the payload move; what the buffer then reads is that of one write. -/
theorem payloadByteStoredUnlessMismatched : Obligations.PayloadByteStoredUnlessMismatched := by
  intro s b rest hq hr hidx
  refine ⟨_, codecStep_rxPay hq hr fun _ => hidx, fun hm => ?_, fun hm => if_pos hm⟩
  rw [if_neg (by simp [hm])]
  exact ⟨Memory.read_write_same .., fun a ha => Memory.read_write_other _ _ _ _ ha⟩

/-- Settles O5: by the size check. -/
theorem sendRecordsThenChecksThenStarts : Obligations.SendRecordsThenChecksThenStarts := by
  intro s cmd p hs
  refine ⟨_, exec_send_idle hs cmd p, fun hlong => ?_, fun hfits => ?_⟩ <;>
    rcases s.acceptSend_cases cmd p with ⟨h, e⟩ | ⟨h, e⟩ <;> rw [e]
  · rw [hs]; rfl
  · exact absurd hlong (Nat.not_lt.2 h)
  · exact absurd h (Nat.not_lt.2 hfits)
  · rfl

/-- Settles O9: `exec_busy`, which the host's turn needs too. -/
theorem busyBlockHoldsOffRequests : Obligations.BusyBlockHoldsOffRequests :=
  fun _ _ hs hi => exec_busy hi hs

/-- Settles O10: the four moves of the frame's head. -/
theorem headerToCommandBytesWritten : Obligations.HeaderToCommandBytesWritten := by
  refine ⟨fun s hq => codecStep_of_transmitMove (.hdr hq), fun s hq => codecStep_of_transmitMove (.rsvd hq),
    fun s hq => codecStep_of_transmitMove (.len hq), fun s hq hlen => ?_, fun s hq hlen => ?_⟩
  all_goals rw [codecStep_of_transmitMove (.cmd hq)]
  · rw [if_pos (by omega)]; rfl
  · rw [if_neg (by omega)]; rfl

/-- Settles O11: the payload move, by whether this byte is the last. -/
theorem payloadByteWrittenAndSummed : Obligations.PayloadByteWrittenAndSummed := by
  intro s b hq hb
  rw [codecStep_of_transmitMove (.pay hq hb)]
  refine ⟨fun hmore => ?_, fun hlast => ?_⟩
  · rw [if_neg hmore, hq]; rfl
  · rw [if_pos hlast]; rfl

/-- Settles O12: the checksum move. -/
theorem checksumByteEndsSend : Obligations.ChecksumByteEndsSend :=
  fun _ hq => codecStep_of_transmitMove (.csum hq)

/-- Settles O13: each move of a SEND is the same move with other bytes in `RXS`. -/
theorem sendMovesIgnoreReceiveStream : Obligations.SendMovesIgnoreReceiveStream := by
  intro s t r hq h
  obtain ⟨b, u, hu⟩ := exists_transmitMove hq h
  cases (codecStep_of_transmitMove hu).symm.trans h
  exact ⟨hu.sameStreams.rxs, codecStep_of_transmitMove (hu.with_rxs r)⟩

/-- Settles O15: the precondition fails, and the error is raised. -/
theorem recvWithoutCommandEndsNoCommand : Obligations.RecvWithoutCommandEndsNoCommand := by
  intro s cap hs hvalid
  rw [exec_recv_idle hs, State.acceptRecv, if_neg (by simp [hvalid]), hs]
  rfl

/-- Settles O16: the start of reception, by the settle bit. -/
theorem recvStartsReception : Obligations.RecvStartsReception := by
  intro s cap hs hvalid
  have haccept : s.acceptRecv cap = s.startReception cap := if_pos hvalid
  exact ⟨_, (exec_recv_idle hs cap).trans (congrArg _ haccept), Memory.read_nil,
    fun hp => State.startReception_settling hp cap, fun hp => State.startReception_hunting hp cap⟩

/-- Settles O17: the rule of `RX_SETTLE`, and a scheduled turn of the timer. -/
theorem settleWaitEndedByTimer : Obligations.SettleWaitEndedByTimer := by
  refine ⟨fun s hq => ?_, fun s rest hsched => step_scheduled hsched⟩
  rw [codecStep_rxSettle hq]
  exact ⟨fun hp => if_pos hp, fun hp => if_neg (by simp [hp])⟩

/-- Settles O18: by whether the byte is the header. -/
theorem huntDiscardsUntilHeader : Obligations.HuntDiscardsUntilHeader := by
  intro s b rest hq hr
  have hmove := codecStep_rxHunt hq hr
  refine ⟨fun hb => ?_, fun hb => ?_⟩
  · have hseq : (if b = header then Seq.rxRsvd else .rxHunt) = .rxRsvd := if_pos hb
    rw [hmove, hseq]
    rfl
  · have hseq : (if b = header then Seq.rxRsvd else .rxHunt) = s.seq := (if_neg hb).trans hq.symm
    rw [hmove, hseq]
    rfl

/-- Settles O19: by whether the byte is the reserved byte. -/
theorem reservedByteMustBeZero : Obligations.ReservedByteMustBeZero := by
  intro s b rest hq hr
  have hmove := codecStep_rxRsvd hq hr
  exact ⟨fun hb => hmove.trans (congrArg Host.Outcome.next (if_pos hb)),
    fun hb => hmove.trans (congrArg Host.Outcome.next (if_neg hb))⟩

/-- Settles O20: by the two checks of the length byte. -/
theorem lengthByteCheckedAgainstCapacity : Obligations.LengthByteCheckedAgainstCapacity := by
  intro s b rest hq hr
  have hzero : b.toNat = 0 ↔ b = 0x00#8 := ⟨fun h => BitVec.eq_of_toNat_eq h, fun h => by rw [h]; rfl⟩
  have hmove := codecStep_rxLen hq hr
  refine ⟨fun hb => hmove.trans (congrArg Host.Outcome.next ?_), fun hb hcap => hmove.trans (congrArg Host.Outcome.next ?_),
    fun hb hcap => hmove.trans (congrArg Host.Outcome.next ?_)⟩
  · exact if_pos (hzero.2 hb)
  · exact (if_neg (mt hzero.1 hb)).trans (if_pos (exceedsCapacity_iff.2 (by omega)))
  · exact (if_neg (mt hzero.1 hb)).trans (if_neg (by rw [exceedsCapacity_iff]; omega))

/-- Settles O21: by whether a payload follows the echo. -/
theorem echoComparedAndHeld : Obligations.EchoComparedAndHeld := by
  intro s b rest hq hr
  rw [codecStep_rxCmd hq hr]
  refine ⟨fun hlen => ?_, fun hlen => ?_⟩
  · rw [if_pos (by omega)]; rfl
  · rw [if_neg (by omega)]; rfl

/-- Settles O23: by the held mismatch, then by the checksum. -/
theorem checksumByteDecidesOutcome : Obligations.ChecksumByteDecidesOutcome := by
  intro s b rest hq hr
  have hmove := codecStep_rxCsum hq hr
  refine ⟨fun hm => hmove.trans (congrArg Host.Outcome.next ?_),
    fun hm hb => hmove.trans (congrArg Host.Outcome.next ?_), fun hm hb => hmove.trans (congrArg Host.Outcome.next ?_)⟩
  · exact if_pos hm
  · exact (if_neg (by simp [hm])).trans (if_pos hb)
  · exact (if_neg (by simp [hm])).trans (if_neg (not_not_intro hb))

/-- Settles O25: by whether the state is one of a RECV. -/
theorem cancelEndsOnlyAReceive : Obligations.CancelEndsOnlyAReceive := by
  have hreceive : ∀ q ∈ [Seq.rxSettle, .rxHunt, .rxRsvd, .rxLen, .rxCmd, .rxPay, .rxCsum], q.isReceive = true := by
    decide
  have hother : ∀ q ∈ [Seq.idle, .txHdr, .txRsvd, .txLen, .txCmd, .txPay, .txCsum], q.isReceive = false := by
    decide
  intro s
  refine ⟨fun hq => ?_, fun hq => ?_⟩ <;> rw [exec_cancel, State.acceptCancel]
  · rw [if_pos (hreceive _ hq)]; rfl
  · rw [if_neg (by simp [hother _ hq])]

/-- Settles O60: with the bit set the codec has no move, so the timer clears it; then the codec has one. -/
theorem settleIntervalEventuallyElapses : Obligations.SettleIntervalEventuallyElapses := by
  intro s hsched hq hp
  refine ⟨?_, ?_⟩
  · have hwaits : s.codecEnabled = false := by simp [State.codecEnabled, hq, hp, Seq.isTransmit, Seq.readsByte]
    rw [step_exhausted hsched, hwaits, hp]
    rfl
  · have hmoves : ({ s with settlePending := false } : State).codecEnabled = true := by simp [State.codecEnabled, hq]
    rw [step_exhausted (s := { s with settlePending := false }) hsched, hmoves]
    exact codecStep_rxSettle hq

end Sys2Proof.Machine
end

section
/-! PROOFS. The sequencer against the decoder function (R122): from each receive state the moves that follow lead to what the
step of R105 it stands for answers on the bytes in `RXS`. -/

namespace Sys2Proof.Machine

/-! ### What the sequencer is compared by -/

/-- `s` with everything as in `t` that a RECV in progress may change. -/
def State.readingAs (s t : State) : State :=
  { s with
    seq := t.seq, rxLen := t.rxLen, rxCmd := t.rxCmd, rxMismatch := t.rxMismatch, rxAcc := t.rxAcc, rxIdx := t.rxIdx,
    rxBuf := t.rxBuf, rxs := t.rxs }

/-- `s` with everything as in `t` that a RECV and its end may change. -/
def State.receivedAs (s t : State) : State :=
  { s.readingAs t with
    rxReady := t.rxReady, resCode := t.resCode, resLen := t.resLen, resCmd := t.resCmd, reports := t.reports }

/-- With `i` bytes consumed before `s`, the `n` moves from `s` to `t` end as the decoder answers. -/
def State.EndsAs (s : State) (i n : Nat) (t : State) : FrameResult → Prop
  | .ok echo p consumed =>
    i + n = consumed ∧ t.seq = .idle ∧ t.resCode = .ok ∧ t.resCmd = echo ∧ t.resLen = BitVec.ofNat 8 p.length ∧
    t.holdsPayload p ∧ t.reports = s.reports ++ [.received echo (BitVec.ofNat 8 p.length) (cellsOf p)]
  | .error e consumed =>
    i + n = consumed ∧ t.seq = .idle ∧ t.resCode = e ∧ t.rxBuf = [] ∧ t.rxReady = false ∧ t.resLen = s.resLen ∧
    t.resCmd = s.resCmd ∧ t.reports = s.reports ++ [.error e]
  | .blocked =>
    n = s.rxs.length ∧ t.seq.readsByte = true ∧ codecStep t = .next t ∧ t.resCode = s.resCode ∧ t.reports = s.reports

/-- With `i` bytes consumed before it, `s` runs to the answer `r`. -/
def State.Receives (s : State) (i : Nat) (r : FrameResult) : Prop :=
  ∃ n t, codecMoves n s = .next t ∧ t = s.receivedAs t ∧ t.rxs = s.rxs.drop n ∧ s.EndsAs i n t r

section
variable {s u : State} {i : Nat} {b : Byte} {rest : List Byte} {r : FrameResult}

/-- A state that waits for a byte that is not there makes no move (R238). -/
theorem codecStep_starved (hq : s.seq.readsByte = true) (hr : s.rxs = []) : codecStep s = .next s := by
  cases hs : s.seq with
  | rxHunt | rxRsvd | rxLen | rxCmd | rxPay | rxCsum =>
    simp only [codecStep, hs]
    exact State.rxRead_nil _ hr
  | _ => rw [hs] at hq; cases hq

theorem State.Receives.blocked (hq : s.seq.readsByte = true) (hr : s.rxs = []) : s.Receives i .blocked :=
  ⟨0, s, rfl, rfl, rfl, by rw [hr]; rfl, hq, codecStep_starved hq hr, rfl, rfl⟩

/-- An error raised by the byte read, whether or not that byte was latched as the length. -/
theorem State.Receives.error {len : Byte} {e : ResCode} (hr : s.rxs = b :: rest)
    (hstep : codecStep s = .next (({ s with rxs := rest, rxLen := len } : State).raise e)) :
    s.Receives i (.error e (i + 1)) :=
  ⟨1, _, codecMoves_one hstep, rfl, by rw [hr]; rfl, rfl, rfl, rfl, rfl, rfl, rfl, rfl, rfl⟩

theorem State.EndsAs.of_move {n : Nat} {t : State} (hr : s.rxs = b :: u.rxs) (hu : u = s.readingAs u)
    (h : u.EndsAs (i + 1) n t r) : s.EndsAs i (n + 1) t r := by
  have hreports : u.reports = s.reports := by rw [hu]; rfl
  have hcode : u.resCode = s.resCode := by rw [hu]; rfl
  have hlen : u.resLen = s.resLen := by rw [hu]; rfl
  have hcmd : u.resCmd = s.resCmd := by rw [hu]; rfl
  cases r with
  | blocked =>
    obtain ⟨hn, hq, hwait, hc, hrep⟩ := h
    exact ⟨by rw [hr, hn, List.length_cons], hq, hwait, hc.trans hcode, hrep.trans hreports⟩
  | ok echo p consumed =>
    obtain ⟨hn, hq, hc, hecho, hl, hp, hrep⟩ := h
    exact ⟨by omega, hq, hc, hecho, hl, hp, by rw [hrep, hreports]⟩
  | error e consumed =>
    obtain ⟨hn, hq, hc, hbuf, hready, hl, hm, hrep⟩ := h
    exact ⟨by omega, hq, hc, hbuf, hready, hl.trans hlen, hm.trans hcmd, by rw [hrep, hreports]⟩

/-- A move that reads a byte and does not end the RECV only counts it. -/
theorem State.Receives.of_move (hr : s.rxs = b :: u.rxs) (hstep : codecStep s = .next u) (hu : u = s.readingAs u)
    (h : u.Receives (i + 1) r) : s.Receives i r := by
  obtain ⟨n, t, hmoves, hframe, hrxs, hend⟩ := h
  have hframe' : u.receivedAs t = s.receivedAs t := by rw [hu]; rfl
  exact ⟨n + 1, t, (codecMoves_succ hstep n).trans hmoves, hframe.trans hframe', by rw [hrxs, hr]; rfl,
    hend.of_move hr hu⟩

end

/-! ### The body of the frame (R110 to R112) -/

theorem cellsOf_writtenTo (p : List Byte) : (cellsOf p).writtenTo p.length :=
  List.map_fst_zip (by simp)

/-- The next byte of a payload goes into the next cell. -/
theorem write_cellsOf (p : List Byte) (b : Byte) : Memory.write (cellsOf p) p.length b = cellsOf (p ++ [b]) := by
  rw [Memory.writtenTo_write b (cellsOf_writtenTo p), cellsOf, cellsOf, List.length_append, List.length_singleton,
    List.range_succ, List.zip_append (by simp)]
  rfl

/-- The echo was read and `p` is the part of the payload read since; the block waits for more of it, or for the checksum. -/
structure State.BodyRead (s : State) (p : List Byte) : Prop where
  seq : s.seq = if p.length = s.rxLen.toNat - 1 then .rxCsum else .rxPay
  short : p.length < s.rxLen.toNat
  fits : s.rxLen.toNat ≤ s.rxCap + 1
  idx : s.rxIdx.toNat = p.length
  mismatch : s.rxMismatch = echoMismatch s.rxCmd s.lastCmd
  stored : s.rxMismatch = false → s.rxBuf = cellsOf p ∧ s.rxAcc = checksum s.rxLen s.rxCmd p

section
variable {s : State} {i : Nat} {p : List Byte} {b : Byte} {rest : List Byte}

theorem State.BodyRead.readsByte (h : s.BodyRead p) : s.seq.readsByte = true := by
  rw [h.seq]
  split <;> rfl

/-- A payload move reads one byte more. -/
theorem State.BodyRead.snoc (h : s.BodyRead p) (hmore : p.length + 1 < s.rxLen.toNat) :
    ({ s with
      rxs := rest
      rxAcc := s.rxAcc + b
      rxBuf := if s.rxMismatch then s.rxBuf else Memory.write s.rxBuf s.rxIdx.toNat b
      rxIdx := s.rxIdx + 1#8
      seq := if s.rxIdx.toNat + 1 = s.rxLen.toNat - 1 then .rxCsum else .rxPay } : State).BodyRead (p ++ [b]) where
  seq := by simp only [h.idx, List.length_append, List.length_singleton]
  short := by simpa using hmore
  fits := h.fits
  idx := by
    rw [List.length_append, List.length_singleton, ← h.idx]
    exact toNat_succ_of_lt (h.idx.trans_lt h.short) s.rxLen.isLt
  mismatch := h.mismatch
  stored := fun hm => by
    simp only at hm
    obtain ⟨hbuf, hacc⟩ := h.stored hm
    simp only [hm, hbuf, hacc, h.idx, write_cellsOf, checksum_snoc, if_neg Bool.false_ne_true, and_self]

/-- The whole payload is read and its checksum byte is there: the RECV ends. -/
theorem State.BodyRead.receives_checksum (h : s.BodyRead p) (hlen : s.rxLen.toNat = p.length + 1) (hr : s.rxs = b :: rest) :
    s.Receives (p.length + i) (decodeBody s.lastCmd s.rxLen s.rxCmd i (p ++ b :: rest)) := by
  have hq : s.seq = .rxCsum := h.seq.trans (if_pos (by omega))
  have hmismatch : s.rxMismatch = decide (s.rxCmd ≠ s.lastCmd) := h.mismatch
  obtain ⟨hcorrelation, hchecksum, hok⟩ := checksumByteDecidesOutcome s b rest hq hr
  rw [decodeBody_whole hlen]
  split
  next hce =>
    exact .error hr (hcorrelation (by rw [hmismatch, decide_eq_true hce]))
  next hce =>
    have hm : s.rxMismatch = false := by rw [hmismatch, decide_eq_false hce]
    obtain ⟨hbuf, hacc⟩ := h.stored hm
    split
    next hck => exact .error hr (hchecksum hm (by rwa [hacc]))
    next hck =>
      have hreslen : s.rxLen - 1#8 = BitVec.ofNat 8 p.length := by
        apply BitVec.eq_of_toNat_eq
        have := s.rxLen.isLt
        rw [BitVec.toNat_ofNat]
        bv_omega
      have hcount : (BitVec.ofNat 8 p.length).toNat = p.length := by
        have := s.rxLen.isLt
        rw [BitVec.toNat_ofNat]
        omega
      have hcap : p.length ≤ s.rxCap := by have := h.fits; omega
      refine ⟨1, _, codecMoves_one (hok hm (by rw [hacc]; exact not_not.1 hck)), rfl, by rw [hr]; rfl, rfl, rfl, rfl, rfl,
        hreslen, ⟨rfl, rfl, hbuf, ?_, hcap⟩, ?_⟩
      · rw [hreslen, hcount]
      · simp only [hreslen, hbuf]

/-- From the echo on the sequencer runs to the answer of `decodeBody`. -/
theorem State.BodyRead.receives (h : s.BodyRead p) :
    s.Receives (p.length + i) (decodeBody s.lastCmd s.rxLen s.rxCmd i (p ++ s.rxs)) := by
  induction hr : s.rxs generalizing s p with
  | nil =>
    rw [List.append_nil, decodeBody_short h.short]
    exact .blocked h.readsByte hr
  | cons b rest ih =>
    have hshort := h.short
    rcases Nat.lt_or_eq_of_le hshort with hmore | hlast
    · have hq : s.seq = .rxPay := h.seq.trans (if_neg (by omega))
      have hcap : s.rxIdx.toNat < s.rxCap := by have := h.idx; have := h.fits; omega
      have hnext := ih (h.snoc (rest := rest) (b := b) hmore) rfl
      rw [List.append_assoc, List.length_append, Nat.add_right_comm] at hnext
      exact .of_move hr (codecStep_rxPay hq hr fun _ => hcap) rfl hnext
    · exact h.receives_checksum hlast.symm hr

end

/-! ### The head of the frame (R106 to R109) -/

section
variable {s : State} {i : Nat}

theorem receives_echo (hq : s.seq = .rxCmd) (hbuf : s.rxBuf = []) (hpos : s.rxLen.toNat ≠ 0)
    (hcap : s.rxLen.toNat ≤ s.rxCap + 1) :
    s.Receives (i + 1) (decodeLength s.lastCmd s.rxCap i (s.rxLen :: s.rxs)) := by
  cases hr : s.rxs with
  | nil =>
    rw [decodeLength_no_echo hpos hcap]
    exact .blocked (hq ▸ rfl) hr
  | cons ce body =>
    have hbody : ({ s with
        rxs := body
        rxCmd := ce
        rxMismatch := echoMismatch ce s.lastCmd
        rxAcc := s.rxLen + ce
        rxIdx := 0x00#8
        seq := if 0 < s.rxLen.toNat - 1 then .rxPay else .rxCsum } : State).BodyRead [] :=
      { seq := by
          have hpayload : 0 < s.rxLen.toNat - 1 ↔ ¬ 0 = s.rxLen.toNat - 1 := by omega
          simp only [List.length_nil, hpayload, ite_not]
        short := Nat.pos_of_ne_zero hpos
        fits := hcap
        idx := rfl
        mismatch := rfl
        stored := fun _ => ⟨hbuf, (checksum_nil _ _).symm⟩ }
    rw [decodeLength_echo hpos hcap]
    have hnext := hbody.receives (i := i + 2)
    rw [List.length_nil, Nat.zero_add] at hnext
    exact .of_move hr (codecStep_rxCmd hq hr) rfl hnext

theorem receives_length (hq : s.seq = .rxLen) (hbuf : s.rxBuf = []) :
    s.Receives i (decodeLength s.lastCmd s.rxCap i s.rxs) := by
  cases hr : s.rxs with
  | nil => exact .blocked (hq ▸ rfl) hr
  | cons len rest =>
    obtain ⟨hzero, hover, hfits⟩ := lengthByteCheckedAgainstCapacity s len rest hq hr
    by_cases hlen : len = 0x00#8
    · rw [decodeLength_zero (congrArg BitVec.toNat hlen)]
      exact .error hr (hzero hlen)
    have hpos : len.toNat ≠ 0 := fun h => hlen (BitVec.eq_of_toNat_eq h)
    rcases Nat.lt_or_ge (s.rxCap + 1) len.toNat with hcap | hcap
    · rw [decodeLength_over hcap]
      exact .error hr (hover hlen (by omega))
    · exact .of_move hr (hfits hlen (by omega)) rfl (receives_echo rfl hbuf hpos hcap)

theorem receives_reserved (hq : s.seq = .rxRsvd) (hbuf : s.rxBuf = []) :
    s.Receives i (decodeReserved s.lastCmd s.rxCap i s.rxs) := by
  cases hr : s.rxs with
  | nil => exact .blocked (hq ▸ rfl) hr
  | cons b rest =>
    obtain ⟨hzero, hbad⟩ := reservedByteMustBeZero s b rest hq hr
    by_cases hb : b = reservedByte
    · rw [hb, decodeReserved_zero]
      exact .of_move hr (hzero hb) rfl (receives_length rfl hbuf)
    · rw [decodeReserved_bad hb]
      exact .error hr (hbad hb)

/-- The hunt skips the bytes before a header and counts them. -/
theorem receives_after_garbage {g rest : List Byte} {r : FrameResult} (hq : s.seq = .rxHunt) (hg : header ∉ g)
    (hr : s.rxs = g ++ rest) (h : ({ s with rxs := rest } : State).Receives (i + g.length) r) : s.Receives i r := by
  induction g generalizing s i with
  | nil =>
    have hs : ({ s with rxs := rest } : State) = s := by rw [← List.nil_append rest, ← hr]
    rwa [hs] at h
  | cons b g ih =>
    obtain ⟨hb, hg⟩ := not_or.1 (mt List.mem_cons.2 hg)
    obtain ⟨-, hskip⟩ := huntDiscardsUntilHeader s b (g ++ rest) hq hr
    rw [List.length_cons, Nat.add_comm g.length, ← Nat.add_assoc] at h
    exact .of_move (u := { s with rxs := g ++ rest }) hr (hskip (Ne.symm hb)) rfl (ih hq hg rfl h)

/-- From the hunt on the sequencer runs to the answer of the decoder. -/
theorem receives_frame (hq : s.seq = .rxHunt) (hbuf : s.rxBuf = []) :
    s.Receives 0 (decodeFrame s.lastCmd s.rxCap s.rxs) := by
  cases hhunt : huntHeader s.rxs 0 with
  | none =>
    have hnone := huntHeader_none.1 hhunt
    rw [decodeFrame_of_no_header hnone]
    have hdrained : ({ s with rxs := [] } : State).Receives (0 + s.rxs.length) .blocked := .blocked (hq ▸ rfl) rfl
    exact receives_after_garbage hq hnone (List.append_nil _).symm hdrained
  | some found =>
    obtain ⟨g, hg, hr, -⟩ := huntHeader_some hhunt
    rw [hr, decodeFrame_of_header hg]
    refine receives_after_garbage hq hg hr ?_
    obtain ⟨hfound, -⟩ := huntDiscardsUntilHeader { s with rxs := header :: found.2 } header found.2 hq rfl
    rw [Nat.zero_add]
    exact .of_move rfl (hfound rfl) rfl (receives_reserved rfl hbuf)

end

/-! ### The obligation -/

/-- Settles O27: the hunt skips what comes before the first header; then the sequencer follows R105 step by step. -/
theorem sequencerAgreesWithDecode : Obligations.SequencerAgreesWithDecode := by
  intro s hq hbuf _
  obtain ⟨n, t, hmoves, hframe, hrxs, hend⟩ := receives_frame hq hbuf
  refine ⟨n, t, hmoves, hframe, hrxs, ?_⟩
  cases hd : decodeFrame s.lastCmd s.rxCap s.rxs <;> rw [hd] at hend
  case blocked => exact hend
  case ok | error =>
    rw [State.EndsAs, Nat.zero_add] at hend
    exact hend

end Sys2Proof.Machine
end

section
/-! PROOFS. The 19 command frames: each is the SEND of its code (R140), so what an accepted SEND does is said of all of them at
once. -/

namespace Sys2Proof.Machine

/-- The commands with their codes (R69), all with the payload `p`. -/
def commandRows (p : List Byte) : List (Instr × Byte) :=
  [(.reset p, 0x80#8), (.getFirmware p, 0x81#8), (.seekTag p, 0x82#8), (.selectTag p, 0x83#8), (.authenticate p, 0x85#8),
    (.readBlock p, 0x86#8), (.readValue p, 0x87#8), (.writeBlock p, 0x89#8), (.writeValue p, 0x8A#8),
    (.writeUltralight p, 0x8B#8), (.writeKey p, 0x8C#8), (.increment p, 0x8D#8), (.decrement p, 0x8E#8),
    (.antenna p, 0x90#8), (.readPort p, 0x91#8), (.writePort p, 0x92#8), (.halt p, 0x93#8), (.setBaudRate p, 0x94#8),
    (.sleep p, 0x96#8)]

section
variable {s : State} {p : List Byte} {ic : Instr × Byte}

/-- The two columns of the rows, instruction and code, agree with the model's `sentCommand` row by row. -/
theorem sentCommand_of_mem_commandRows (hic : ic ∈ commandRows p) : sentCommand ic.1 = some (ic.2, p) := by
  have hcolumns : (commandRows p).map (fun ic => sentCommand ic.1) = (commandRows p).map fun ic => some (ic.2, p) := rfl
  exact List.map_inj_left.1 hcolumns ic hic

/-- In `IDLE` an instruction that sends a command is accepted as the SEND of it (R90, R140). -/
theorem exec_sentCommand_idle {i : Instr} {cmd : Byte} (hs : s.seq = .idle) (hi : sentCommand i = some (cmd, p)) :
    exec i s = .next (s.acceptSend cmd p) := by
  rcases exec_shape i s with ⟨cmd', p', hi', -, e⟩ | ⟨cap, rfl, -, -⟩ | ⟨rfl, -, -⟩ | ⟨f, hi', -, -⟩
  · cases hi.symm.trans hi'
    exact e.trans (State.whenIdle_idle (fun s => .next (s.acceptSend cmd p)) hs)
  · cases hi
  · cases hi
  · cases hi.symm.trans hi'

/-- A command with a payload that fits starts its frame (R91, R94). -/
theorem exec_command_fits (hic : ic ∈ commandRows p) (hs : s.seq = .idle) (hp : p.length ≤ maxPayload) :
    exec ic.1 s = .next ((s.recordCommand ic.2).startTransmission ic.2 p) := by
  have haccept : s.acceptSend ic.2 p = (s.recordCommand ic.2).startTransmission ic.2 p := if_neg (Nat.not_lt.2 hp)
  rw [exec_sentCommand_idle hs (sentCommand_of_mem_commandRows hic), haccept]

/-- A command with an oversized payload raises the error, its code recorded (R91, R92). -/
theorem exec_command_oversized (hic : ic ∈ commandRows p) (hs : s.seq = .idle) (hp : maxPayload < p.length) :
    exec ic.1 s = .next ((s.recordCommand ic.2).raise .oversizedPayload) := by
  have haccept : s.acceptSend ic.2 p = (s.recordCommand ic.2).raise .oversizedPayload := if_pos hp
  rw [exec_sentCommand_idle hs (sentCommand_of_mem_commandRows hic), haccept]

/-- With no carry out of the length byte, the frame's checksum byte is a sum over the payload's length itself (R66). -/
theorem encodeFrame_of_fits (cmd : Byte) (hp : p.length ≤ maxPayload) :
    encodeFrame cmd p = [header, reservedByte, lengthByte p.length, cmd] ++ p ++
      [BitVec.ofNat 8 (p.length + 1 + cmd.toNat + byteSum p)] := by
  rw [encodeFrame, checksum, lengthByte_toNat hp]

end

/-! ### The obligations -/

/-- Settles O7: the command starts its frame, and a started frame is run to its end. -/
theorem commandFramesWriteTheirFrames : Obligations.CommandFramesWriteTheirFrames := by
  intro s p hs hp ic hic
  have hstart := exec_command_fits hic hs hp
  have hrun := codecMoves_startTransmission (s.recordCommand ic.2) ic.2 hp
  refine ⟨hstart, _, _, hstart, hrun, rfl, rfl, rfl, rfl, rfl, ?_⟩
  exact congrArg (s.txs ++ ·) (encodeFrame_of_fits ic.2 hp)

/-- Settles O8: the command fails the size check; raising the error leaves `seq` at the `IDLE` it was presented in. -/
theorem oversizedCommandFramesWriteNothing : Obligations.OversizedCommandFramesWriteNothing := by
  intro s p hs hp ic hic
  rw [exec_command_oversized hic hs hp, hs]
  rfl

end Sys2Proof.Machine
end

section
/-! PROOFS. The response decoders: the payload they are applied to, what each answers for every shape of it, the multi-byte
quantities as sums, and the meaning of a status byte. -/

namespace Sys2Proof.Machine

/-! ### The multi-byte quantities -/

/-- Shifting a word by a byte and ORing the next byte in is multiplying by 2^8 and adding it; what leaves the word at the top
is cut on both sides. -/
theorem shift_or_byte (n : Nat) (b : Byte) :
    BitVec.ofNat 32 n <<< 8 ||| b.setWidth 32 = BitVec.ofNat 32 (n * 2 ^ 8 + b.toNat) := by
  have hsum : n * 2 ^ 8 + b.toNat = n <<< 8 ||| b.toNat := by
    rw [← Nat.shiftLeft_eq, Nat.shiftLeft_add_eq_or_of_lt b.isLt]
  have hshift : BitVec.ofNat 32 n <<< 8 = BitVec.ofNat 32 (n <<< 8) :=
    BitVec.eq_of_toNat_eq (by simp [Nat.shiftLeft_eq])
  rw [hsum, BitVec.ofNat_or, BitVec.ofNat_toNat, hshift]

/-- The firmware integer is the sum of its bytes by weight, most significant first (R175). -/
theorem firmwareWord_eq_ofNat (b0 b1 b2 b3 : Byte) :
    firmwareWord b0 b1 b2 b3 =
      BitVec.ofNat 32 (b0.toNat * 2 ^ 24 + b1.toNat * 2 ^ 16 + b2.toNat * 2 ^ 8 + b3.toNat) := by
  rw [firmwareWord, ← BitVec.ofNat_toNat 32 b0, shift_or_byte, shift_or_byte, shift_or_byte]
  exact congrArg (BitVec.ofNat 32) (by ring)

/-- `VALUE32` is the two's complement reading of the sum of its bytes by weight, least significant first (R178). -/
theorem value32_eq_toInt (v0 v1 v2 v3 : Byte) :
    value32 [v0, v1, v2, v3] =
      BitVec.toInt (BitVec.ofNat 32 (v0.toNat + v1.toNat * 2 ^ 8 + v2.toNat * 2 ^ 16 + v3.toNat * 2 ^ 24)) := by
  have hfold : value32 [v0, v1, v2, v3] = BitVec.toInt ((((BitVec.ofNat 32 0 <<< 8 ||| v3.setWidth 32) <<< 8 |||
      v2.setWidth 32) <<< 8 ||| v1.setWidth 32) <<< 8 ||| v0.setWidth 32) := rfl
  rw [hfold, shift_or_byte, shift_or_byte, shift_or_byte, shift_or_byte]
  exact congrArg (fun n => (BitVec.ofNat 32 n).toInt) (by ring)

/-- The bytes from an offset on, where four are left. -/
theorem drop_of_four_left {p : List Byte} {n : Nat} (h : p.length = n + 4) :
    p.drop n = [p.getD n 0, p.getD (n + 1) 0, p.getD (n + 2) 0, p.getD (n + 3) 0] := by
  have hcons : ∀ a, a < n + 4 → p.drop a = p.getD a 0 :: p.drop (a + 1) := fun a ha => by
    have ha : a < p.length := h ▸ ha
    rw [List.drop_eq_getElem_cons ha, List.getD_eq_getElem p 0 ha]
  rw [hcons n (by omega), hcons (n + 1) (by omega), hcons (n + 2) (by omega), hcons (n + 3) (by omega),
    List.drop_eq_nil_of_le h.le]

/-! ### The value of each decoder, by the shape of the payload -/

/-- DEC_AUTH knows one byte only (R176). -/
theorem authValue_of_length_ne_one {p : List Byte} (h : p.length ≠ 1) : authValue p = .unexpectedResponse := by
  match p with
  | [] => rfl
  | [_] => exact absurd rfl h
  | _ :: _ :: _ => rfl

/-- 17 bytes are a block: the block number, then the data (R177). -/
theorem readBlockValue_of_block {data : List Byte} (number : Byte) (h : data.length = 16) :
    readBlockValue (number :: data) = .block number data := by
  match data with
  | [] => cases h
  | _ :: _ => exact if_pos h

/-- DEC_READ_BLOCK knows no other length (R177). -/
theorem readBlockValue_of_other_length {p : List Byte} (hstatus : p.length ≠ 1) (hblock : p.length ≠ 17) :
    readBlockValue p = .unexpectedResponse := by
  match p with
  | [] => rfl
  | [_] => exact absurd rfl hstatus
  | _ :: _ :: _ => exact if_neg fun h => hblock (congrArg (· + 1) h)

/-- Where it is not a status, the payload must be the four bytes of the value behind the offset (R178). -/
theorem readValueValue_of_length_ne_one {p : List Byte} (offset : Nat) (h : p.length ≠ 1) :
    readValueValue offset p =
      if p.length = offset + 4 then .value (value32 (p.drop offset)) else .unexpectedResponse := by
  match p with
  | [] => rfl
  | [_] => exact absurd rfl h
  | _ :: _ :: _ => rfl

/-! ### A decoder call in `IDLE` -/

section
variable {s : State} {p : List Byte}

/-- Every cell of a payload the caller holds is written and below the capacity, so reading it answers it (R170). -/
theorem State.payload_of_holdsPayload (hp : s.holdsPayload p) : s.payload = .ok p := by
  obtain ⟨hready, hok, hbuf, hlen, hcap⟩ := hp
  have hread : s.readCells 0 s.resLen.toNat = .ok p := State.readCells_cellsOf hbuf hcap (by rw [Nat.zero_add, hlen])
  rw [State.payload, if_pos ⟨hready, hok⟩, hread]

/-- Applied to a payload, a decoder gives the caller its value with the value's meaning, and writes no register (R170, R183). -/
theorem applyDecoder_of_holdsPayload {f : List Byte → DecValue} {v : DecValue} {m : Option StatusMeaning}
    (hs : s.seq = .idle) (hp : s.holdsPayload p) (hv : f p = v) (hm : v.meaning s.lastCmd = m) :
    applyDecoder f s = .next { s with reports := s.reports ++ [.decoded v m] } := by
  subst hv hm
  have hread := State.payload_of_holdsPayload hp
  rcases applyDecoder_cases f s with ⟨hbusy, -⟩ | ⟨-, _, herror, -⟩ | ⟨-, q, hq, e⟩
  · exact absurd hs hbusy
  · cases hread.symm.trans herror
  · cases hread.symm.trans hq
    exact e

/-- Applied where there is no payload, a decoder faults (R170, U7). -/
theorem applyDecoder_of_no_payload (f : List Byte → DecValue) (hs : s.seq = .idle)
    (hno : s.rxReady = false ∨ s.resCode ≠ .ok) : applyDecoder f s = .fault .noPayload := by
  have hread : s.payload = .error .noPayload := by
    rcases s.payload_cases with ⟨-, e⟩ | ⟨hready, hok, -⟩
    · exact e
    · rcases hno with h | h
      · cases hready.symm.trans h
      · exact absurd hok h
  rcases applyDecoder_cases f s with ⟨hbusy, -⟩ | ⟨-, _, herror, e⟩ | ⟨-, _, hok, -⟩
  · exact absurd hs hbusy
  · cases hread.symm.trans herror
    exact e
  · cases hread.symm.trans hok

end

/-! ### The obligations -/

/-- Settles O41: the three clauses are the three shapes of `tagValue`. -/
theorem decTagResult : Obligations.DecTagResult := by
  intro s p hs hp
  refine ⟨?_, ?_, ?_⟩
  · rintro rfl
    exact applyDecoder_of_holdsPayload (f := tagValue) hs hp rfl rfl
  · rintro code rfl
    exact applyDecoder_of_holdsPayload (f := tagValue) hs hp rfl rfl
  · rintro kind b serial rfl
    exact applyDecoder_of_holdsPayload (f := tagValue) hs hp rfl rfl

/-- Settles O42: `fwStringValue` keeps the payload. -/
theorem decFwStringResult : Obligations.DecFwStringResult := fun _ _ hs hp =>
  applyDecoder_of_holdsPayload (f := fwStringValue) hs hp rfl rfl

/-- Settles O43: the word is the sum of the four bytes by weight, and neither value is a status. -/
theorem decFwU32Result : Obligations.DecFwU32Result := by
  intro s p hs hp
  refine applyDecoder_of_holdsPayload (f := fwU32Value Config.fwIdx) hs hp ?_ ?_
  · rw [fwU32Value, firmwareWord_eq_ofNat]
  · split <;> rfl

/-- Settles O44: one byte is a status, every other length is unexpected. -/
theorem decAuthResult : Obligations.DecAuthResult := by
  intro s p hs hp
  refine ⟨?_, fun hlen => ?_⟩
  · rintro code rfl
    exact applyDecoder_of_holdsPayload (f := authValue) hs hp rfl rfl
  · exact applyDecoder_of_holdsPayload hs hp (authValue_of_length_ne_one hlen) rfl

/-- Settles O45: a status, a block, or an unexpected length. -/
theorem decReadBlockResult : Obligations.DecReadBlockResult := by
  intro s p hs hp
  refine ⟨?_, ?_, fun hstatus hblock => ?_⟩
  · rintro code rfl
    exact applyDecoder_of_holdsPayload (f := readBlockValue) hs hp rfl rfl
  · rintro number data rfl hlen
    exact applyDecoder_of_holdsPayload hs hp (readBlockValue_of_block number hlen) rfl
  · exact applyDecoder_of_holdsPayload hs hp (readBlockValue_of_other_length hstatus hblock) rfl

/-- Settles O46: a status, or the four bytes behind the offset read as `VALUE32`, or an unexpected length. -/
theorem decReadValueResult : Obligations.DecReadValueResult := by
  intro s p hs hp
  refine ⟨?_, fun hlen => ?_⟩
  · rintro code rfl
    exact applyDecoder_of_holdsPayload (f := readValueValue Config.valueOffset) hs hp rfl rfl
  · refine applyDecoder_of_holdsPayload (f := readValueValue Config.valueOffset) hs hp ?_ ?_
    · rw [readValueValue_of_length_ne_one _ hlen]
      refine ite_congr rfl (fun hvalue => ?_) fun _ => rfl
      rw [drop_of_four_left hvalue, value32_eq_toInt]
    · split <;> rfl

/-- Settles O47: `VALUE32` is the two's complement reading of the sum `u`, and `u` is below 2^32. -/
theorem valueReassembledLeastSignificantFirst : Obligations.ValueReassembledLeastSignificantFirst := by
  rintro v0 v1 v2 v3 u hu
  have hvalue : value32 [v0, v1, v2, v3] = (BitVec.ofNat 32 u).toInt := hu ▸ value32_eq_toInt v0 v1 v2 v3
  have hlt : u < 2 ^ 32 := by
    have := v0.isLt; have := v1.isLt; have := v2.isLt; have := v3.isLt
    omega
  have hword : (BitVec.ofNat 32 u).toNat = u := BitVec.toNat_ofNat u 32 ▸ Nat.mod_eq_of_lt hlt
  rw [hvalue, BitVec.toInt_eq_toNat_cond, hword]
  exact ⟨fun h => if_pos (by omega), fun h => if_neg (by omega)⟩

/-- Settles O48: each of the four has the one-byte payload as a shape of its own, before it looks at anything else. -/
theorem singleByteIsAlwaysStatus : Obligations.SingleByteIsAlwaysStatus := fun _ _ => ⟨rfl, rfl, rfl, rfl⟩

/-- Settles O49: each of the six is a decoder call. -/
theorem decoderWithoutPayloadFaults : Obligations.DecoderWithoutPayloadFaults := by
  intro s hs hno i hi
  have hfault := fun f => applyDecoder_of_no_payload f hs hno
  simp only [List.mem_cons, List.not_mem_nil, or_false] at hi
  rcases hi with rfl | rfl | rfl | rfl | rfl | rfl
  · exact hfault tagValue
  · exact hfault fwStringValue
  · exact hfault (fwU32Value Config.fwIdx)
  · exact hfault authValue
  · exact hfault readBlockValue
  · exact hfault (readValueValue Config.valueOffset)

/-- Settles O50: by the row of the table the byte is in, or none; in the rows 4C and 55 the outstanding command decides. -/
theorem statusMeaningByOutstandingCommand : Obligations.StatusMeaningByOutstandingCommand := by
  intro last code
  simp only [← BitVec.toNat_inj (x := code)]
  unfold statusMeaning
  split
  case h_1 hrow | h_2 hrow | h_3 hrow | h_5 hrow => simp [hrow]
  case h_4 hrow =>
    by_cases hauth : last = 0x85#8
    · simp [hrow, hauth, authenticateCode]
    · by_cases hhalt : last = 0x93#8 <;> simp [hrow, hauth, hhalt, authenticateCode, haltCode]
  case h_6 hrow => by_cases hauth : last = 0x85#8 <;> simp [hrow, hauth, authenticateCode]
  case h_7 => simp_all

end Sys2Proof.Machine
end

section
/-! PROOFS. The errors: that a codec move or an instruction which reports one has raised it, with nothing before but a byte read
or a command recorded; and the turns of the schedule in which a byte and a CANCEL meet. -/

namespace Sys2Proof.Machine

/-! ### An error reported was raised -/

section
variable {s t u : State} {b : Byte} {e : ResCode}

/-- What was raised is what was reported. -/
theorem State.raise_eq_of_reports {e' : ResCode} (h : (s.raise e').reports = s.reports ++ [.error e]) :
    s.raise e' = s.raise e := by
  obtain rfl : e' = e := by simpa using h
  rfl

/-- A SEND meets no error once its frame has started. -/
theorem TransmitMove.reports_ne_error (hu : TransmitMove s b u) : u.reports ≠ s.reports ++ [.error e] := by
  cases hu <;> simp

theorem ReceiveMove.eq_raise (hu : ReceiveMove s b t) (h : t.reports = s.reports ++ [.error e]) :
    ∃ len, t = ({ s with rxLen := len } : State).raise e := by
  cases hu with
  | error _ len => exact ⟨len, State.raise_eq_of_reports h⟩
  | _ => simp at h

/-- An error of the codec is one of reception, raised at the byte just read; the length byte may have been latched before. -/
theorem CodecMove.eq_raise (hm : CodecMove s t) (h : t.reports = s.reports ++ [.error e]) :
    ∃ len, t = ({ s with rxs := s.rxs.tail, rxLen := len } : State).raise e := by
  cases hm with
  | wait | settled => simp at h
  | transmit hu => exact absurd h hu.reports_ne_error
  | receive hr hu =>
    rw [hr]
    exact hu.eq_raise h

theorem State.acceptSend_eq_raise {cmd : Byte} {p : List Byte}
    (h : (s.acceptSend cmd p).reports = s.reports ++ [.error e]) : s.acceptSend cmd p = (s.recordCommand cmd).raise e := by
  rcases s.acceptSend_cases cmd p with ⟨-, ha⟩ | ⟨-, ha⟩ <;> rw [ha] at h ⊢
  · exact State.raise_eq_of_reports h
  · simp at h

theorem State.acceptRecv_eq_raise {cap : Nat} (h : (s.acceptRecv cap).reports = s.reports ++ [.error e]) :
    s.acceptRecv cap = s.raise e := by
  rcases s.acceptRecv_cases cap with ⟨-, ha⟩ | ⟨-, ha⟩ <;> rw [ha] at h ⊢
  · exact State.raise_eq_of_reports h
  · simp at h

theorem State.acceptCancel_eq_raise (h : s.acceptCancel.reports = s.reports ++ [.error e]) :
    s.acceptCancel = s.raise e := by
  rcases s.acceptCancel_cases with ⟨-, ha⟩ | ⟨-, ha⟩ <;> rw [ha] at h ⊢
  · exact State.raise_eq_of_reports h
  · simp at h

/-- A decoder call hands over a value, or nothing: its device status is no error (R179, R206). -/
theorem applyDecoder_reports_ne_error {f : List Byte → DecValue} (hd : applyDecoder f s = .next t) :
    t.reports ≠ s.reports ++ [.error e] := by
  rcases applyDecoder_cases f s with ⟨-, ha⟩ | ⟨-, _, -, ha⟩ | ⟨-, _, -, ha⟩ <;> cases ha.symm.trans hd <;> simp

/-- An error of an instruction is raised at once, a SEND's after its command was recorded (R91). -/
theorem exec_eq_raise {i : Instr} (hi : exec i s = .next t) (h : t.reports = s.reports ++ [.error e]) :
    t = s.raise e ∨ ∃ cmd p, sentCommand i = some (cmd, p) ∧ t = (s.recordCommand cmd).raise e := by
  rcases exec_cases i s with ⟨-, -, ha⟩ | ⟨-, cmd, p, hsent, ha⟩ | ⟨-, cap, -, ha⟩ | ⟨-, ha⟩ | ⟨-, -, f, ha⟩
  · cases ha.symm.trans hi
    simp at h
  · cases ha.symm.trans hi
    exact .inr ⟨cmd, p, hsent, State.acceptSend_eq_raise h⟩
  · cases ha.symm.trans hi
    exact .inl (State.acceptRecv_eq_raise h)
  · cases ha.symm.trans hi
    exact .inl (State.acceptCancel_eq_raise h)
  · exact absurd h (applyDecoder_reports_ne_error (ha.symm.trans hi))

end

/-! ### The codec's turn -/

theorem State.codecEnabled_iff (s : State) : s.codecEnabled = true ↔
    s.seq.isTransmit = true ∨ s.seq.readsByte = true ∧ s.rxs ≠ [] ∨ s.seq = .rxSettle ∧ s.settlePending = false := by
  simp [codecEnabled, or_assoc]

/-! ### The obligations -/

/-- Settles O34: the state after the error is `raise` of the state before it, with the byte read or the command recorded. -/
theorem errorInReceptionKeepsSession : Obligations.ErrorInReceptionKeepsSession := by
  intro s t e h
  refine ⟨fun hstep => ?_, fun i hexec => ?_⟩
  · obtain ⟨len, rfl⟩ := (codecStep_next hstep).eq_raise h
    exact ⟨rfl, rfl, rfl, rfl, rfl, rfl, rfl, rfl, rfl⟩
  · obtain rfl | ⟨cmd, p, hsent, rfl⟩ := exec_eq_raise hexec h
    · exact ⟨rfl, rfl, rfl, rfl, rfl, rfl, rfl, fun _ => ⟨rfl, rfl⟩⟩
    · exact ⟨rfl, rfl, rfl, rfl, rfl, rfl, rfl, fun hnone => by simp [hsent] at hnone⟩

/-- Settles O26: the host's turn takes the CANCEL whatever `RXS` holds; the codec's turn is its move, and with the schedule
exhausted it has the turn while it has a move. -/
theorem byteAndCancelInEitherOrder : Obligations.ByteAndCancelInEitherOrder := by
  refine ⟨fun s queue rest hq hsched hqueue => ?_, fun s rest hsched => step_scheduled hsched, fun s hsched hmove => ?_⟩
  · have hagent : s.nextAgent = .host := by simp [State.nextAgent, hsched]
    have hreceive : ({ s.tick with hostQueue := queue } : State).seq.isReceive = true := hq
    rw [step_host_present hagent hqueue, presentRequest_taken (i := .cancel) (rest := []) rfl (.inl rfl), exec_cancel,
      State.acceptCancel, if_pos hreceive, State.tick, hsched]
    rfl
  · rw [step_exhausted hsched, if_pos (s.codecEnabled_iff.2 hmove)]
    rfl

end Sys2Proof.Machine
end

section
/-! PROOFS. The reset, and the wait for a byte: the state after reset, the host's turn that resets the block (R230), and the
receive states on an empty `RXS` (R238). -/

namespace Sys2Proof.Machine

/-- The host's turn takes the reset off its queue and resets the block, whatever the block is doing (R230). -/
theorem step_scheduled_reset {s : State} {queue : List HostMove} {rest : List Agent} (hsched : s.schedule = .host :: rest)
    (hqueue : s.hostQueue = .reset :: queue) :
    step s = .next ({ s with schedule := rest, hostQueue := queue } : State).blockReset := by
  rw [step_scheduled hsched]
  simp only [agentTurn, hostTurn, hqueue]

/-! ### The obligations -/

/-- Settles O24: the six states are those that read a byte. -/
theorem emptyStreamLeavesBlockWaiting : Obligations.EmptyStreamLeavesBlockWaiting := by
  have hreads : ∀ q ∈ [Seq.rxHunt, .rxRsvd, .rxLen, .rxCmd, .rxPay, .rxCsum], q.readsByte = true := by decide
  intro s hq hr
  exact codecStep_starved (hreads _ hq) hr

/-- Settles O35: the buffer has no cell. -/
theorem resetLeavesIdleUnwritten : Obligations.ResetLeavesIdleUnwritten :=
  ⟨rfl, rfl, rfl, Memory.read_nil, rfl⟩

/-- Settles O36: the block's registers are those of the state after reset (O35); the streams and the agents around the block are
those of the state before. -/
theorem blockResetAbandonsOperation : Obligations.BlockResetAbandonsOperation := by
  intro s queue rest hsched hqueue
  obtain ⟨hidle, hvalid, hsettle, hunwritten, -⟩ := resetLeavesIdleUnwritten
  exact ⟨_, step_scheduled_reset hsched hqueue, hidle, hvalid, hsettle, hunwritten, rfl, rfl, rfl, rfl, rfl, rfl, rfl⟩

/-- Settles O56: no operation is in progress and there is no payload, so every clause of the invariant is about another state. -/
theorem resetMeetsInvariant : Obligations.ResetMeetsInvariant :=
  State.Inv.of_idle_empty rfl rfl rfl

end Sys2Proof.Machine
end

section
/-! PROOFS. What the decoder answers: one rule per image format saying which instruction it answers and what bounds its
operands, and from them that every instruction answered fits its image. -/

namespace Sys2Proof.Machine

/-! ### One rule per image format -/

section
variable {image rest : List Byte} {i : Instr}

/-- Every row of the command table makes an instruction whose image limit is that of a frame (R69; log 5). -/
theorem wellFormed_of_commandOf {code : Byte} {command : List Byte → Instr} (h : commandOf code = some command)
    (p : List Byte) : (command p).wellFormed = decide (p.length ≤ maxFrameImagePayload) := by
  unfold commandOf at h
  split at h <;> cases h <;> rfl

/-- What a frame image answers: a row of the command table at the payload its length byte announces. -/
theorem decodeFrameImage_command (h : decodeFrameImage image = .ok (i, rest)) :
    ∃ code command p, commandOf code = some command ∧ i = command p ∧ p.length ≤ maxFrameImagePayload := by
  revert h
  fun_cases decodeFrameImage image
  case case3 _ len code _ _ command hcode p _ _ htake =>
    rintro ⟨⟩
    obtain ⟨-, hlen⟩ := takeExactly_some htake
    exact ⟨code, command, p, hcode, rfl, hlen ▸ framePayloadLength_le len⟩
  all_goals nofun

/-- What a SEND image answers: its payload is as long as the length field says, whose high byte is 0 or 1 (log 4). -/
theorem decodeSendImage_send (h : decodeSendImage image = .ok (i, rest)) :
    ∃ cmd p, i = .send cmd p ∧ p.length ≤ maxSendImagePayload := by
  revert h
  fun_cases decodeSendImage image
  case case2 cmd lo hi _ hhigh p _ htake =>
    rintro ⟨⟩
    obtain ⟨-, hlen⟩ := takeExactly_some htake
    have hlow := lo.isLt
    exact ⟨cmd, p, rfl, by rw [maxSendImagePayload]; omega⟩
  all_goals nofun

/-- What a RECV image answers: its capacity is one byte (log 4). -/
theorem decodeRecvImage_recv (h : decodeRecvImage image = .ok (i, rest)) : ∃ cap, i = .recv cap ∧ cap ≤ maxImageCap := by
  cases image with
  | nil => cases h
  | cons cap operands =>
    cases h
    exact ⟨cap.toNat, rfl, Nat.le_of_lt_succ cap.isLt⟩

theorem decodeFrameImage_wellFormed (h : decodeFrameImage image = .ok (i, rest)) : i.wellFormed = true := by
  obtain ⟨code, command, p, hcode, rfl, hp⟩ := decodeFrameImage_command h
  rw [wellFormed_of_commandOf hcode]
  exact decide_eq_true hp

theorem decodeSendImage_wellFormed (h : decodeSendImage image = .ok (i, rest)) : i.wellFormed = true := by
  obtain ⟨cmd, p, rfl, hp⟩ := decodeSendImage_send h
  exact decide_eq_true hp

theorem decodeRecvImage_wellFormed (h : decodeRecvImage image = .ok (i, rest)) : i.wellFormed = true := by
  obtain ⟨cap, rfl, hcap⟩ := decodeRecvImage_recv h
  exact decide_eq_true hcap

end

/-! ### The obligation -/

/-- Settles O2: by the selector byte. The three formats with operands bound them; every other instruction has none. -/
theorem decodedInstructionIsWellFormed : Obligations.DecodedInstructionIsWellFormed := by
  intro image rest i h
  unfold decode at h
  split at h
  · cases h
  next b operands =>
    split at h
    case h_2 => exact decodeSendImage_wellFormed h
    case h_3 => exact decodeRecvImage_wellFormed h
    case h_11 => exact decodeFrameImage_wellFormed h
    all_goals cases h <;> rfl

end Sys2Proof.Machine
end
